-- ==== Sys2Proof/Word.lean ====
section
/-! DEFINITION. The word types of the FPU and of the host items it reads (spec/10_state.md R20, R44, R48). -/

namespace Sys2Proof

/-- One byte of memory or of an instruction (R72). -/
abbrev Byte := BitVec 8

/-- A 16-bit word: control word, status word image, selector. -/
abbrev Word16 := BitVec 16

/-- A 32-bit host register or operand offset (R71). -/
abbrev Word32 := BitVec 32

/-- The 80 bits of a data register: sign 79, biased exponent 78:64, significand 63:0 (R134). -/
abbrev Ext := BitVec 80

/-- A 48-bit pointer: selector 47:32, offset 31:0 (R44). -/
abbrev FarPtr := BitVec 48

/-- A stack index `i` of ST(i), or a physical register number (R23). -/
abbrev StIdx := BitVec 3

end Sys2Proof
end

