-- ==== Sys2Proof/Config.lean ====
section
/-! DEFINITION. What an implementation fixes (spec/00_scope.md R7) and the free values: constants with no body for
everything the spec calls undefined (`undef(n)` of R10) or leaves to NUMERICS (R168; Machine/Numerics.lean bounds those of
the transcendental instructions by R331). -/

namespace Sys2Proof

/-- The processor whose FPU is modelled (parameter GENERATION, R7; D2). -/
inductive Generation where
  | intel486
  | pentium
  | pentiumPro
deriving DecidableEq, Repr, Inhabited

/-- Rounding control (R39). -/
inductive RoundMode where
  | nearest
  | down
  | up
  | zero
deriving DecidableEq, Repr, Inhabited

/-- The implementation parameters of R7 that a rule of an instruction reads. -/
structure Params where
  /-- GENERATION (D2). -/
  generation : Generation
  /-- HAS_FCMOV (D3). -/
  hasFcmov : Bool
  /-- PC_APPLIES_TO_INTEGER_FORMS (D12). -/
  pcAppliesToIntegerForms : Bool
  /-- FCOMI_SIGNALS_D (D22). -/
  fcomiSignalsD : Bool
  /-- The least operand of XP1_DOMAIN (R328), an extended-real number. -/
  xp1Low : Ext
  /-- The greatest operand of XP1_DOMAIN (R328). -/
  xp1High : Ext
deriving DecidableEq, Repr, Inhabited

/-- HAS_FCOMI is true iff GENERATION = PentiumPro (R7, D3). -/
def Params.hasFcomi (P : Params) : Bool := P.generation == .pentiumPro

/-- A finite number: `(-1)^neg * n * 2^k`. -/
structure Num where
  neg : Bool
  n : Nat
  k : Int
deriving DecidableEq, Repr, Inhabited

/-- What a NUMERICS function returns (R320): the non-zero number
`(-1)^neg * (2^63 + frac) * 2^exp`, which has at most 64 significant bits, with the inexact and up bits. -/
structure Approx where
  neg : Bool
  frac : BitVec 63
  exp : Int
  inexact : Bool
  up : Bool
deriving DecidableEq, Repr, Inhabited

/-- The functions of NUMERICS that the transcendental instructions call (R168): of the operand values and RC. -/
structure Numerics where
  /-- FSIN, FSINCOS (R321). -/
  sin : Num → RoundMode → Approx
  /-- FCOS, FSINCOS (R322). -/
  cos : Num → RoundMode → Approx
  /-- FPTAN (R324). -/
  tan : Num → RoundMode → Approx
  /-- FPATAN, of y and x (R325). -/
  atan2 : Num → Num → RoundMode → Approx
  /-- FYL2X, of y and x (R327). -/
  ylog2x : Num → Num → RoundMode → Approx
  /-- FYL2XP1, of y and x (R328). -/
  ylog2xp1 : Num → Num → RoundMode → Approx
  /-- F2XM1 (R329). -/
  exp2m1 : Num → RoundMode → Approx

namespace Config

/-! ### NUMERICS (R168) -/

/-- A free value of the type `T`, of which nothing is known but that `T` holds it. Its only equation is `x = x`: Lean's
fixpoint stands for an arbitrary element, where an opaque constant would need one that can be computed, and no element of
the types it is used at can be. The argument `a` names the draw. -/
def unspecified {T : Type} [Nonempty T] {α : Type} (a : α) : T := unspecified a
partial_fixpoint

/-- NUMERICS.prem_reduce of the exponent difference is 32 plus this, so between 32 and 63 (R168, R263). -/
opaque premReduceOver32 : Nat → Fin 32

/-! ### Undefined values (R10 `undef(n)`): one draw per instruction and use; the argument is `State.draws` -/

/-- C0 where Table 31-3 calls it undefined (U1). -/
opaque freeC0 : Nat → Bool
/-- C1 where it is undefined (U1, U8, U9, U11). -/
opaque freeC1 : Nat → Bool
/-- C2 where it is undefined (U1). -/
opaque freeC2 : Nat → Bool
/-- C3 where it is undefined (U1). -/
opaque freeC3 : Nat → Bool
/-- FDP after an instruction with no memory operand (U2). -/
opaque freeFdp : Nat → FarPtr
/-- An undefined register result (U5, U6, U7). -/
opaque freeExt : Nat → Ext
/-- The low eight bytes of the packed-decimal indefinite (U4). -/
opaque freeBcd : Nat → BitVec 64
/-- The reserved fields of an environment image (U10): five 16-bit words. -/
opaque freeReserved : Nat → BitVec 80
/-- Control word bits 6, 7, 13, 14, 15 as read back (U14, R40). -/
opaque freeCw : Nat → Word16
/-- Whether FERR# is asserted at the detecting instruction (FERR_TIMING, U25, R418). -/
opaque ferrAtOnce : Nat → Bool

end Config

end Sys2Proof
end

