-- ==== Sys2Proof/Syntax.lean ====
section
/-! DEFINITION. The instructions: one constructor for each row of spec/opcode_table.json, with its operands, and the
prefixes and addressing forms they carry (spec/30_encoding.md R101 to R118). -/

namespace Sys2Proof

/-- The prefixes of R106, in the order of its table. -/
inductive Prefix where
  /-- 26H -/
  | es
  /-- 2EH -/
  | cs
  /-- 36H -/
  | ss
  /-- 3EH -/
  | ds
  /-- 64H -/
  | fs
  /-- 65H -/
  | gs
  /-- 67H -/
  | addrSize
  /-- 66H -/
  | opSize
  /-- F0H -/
  | lock
  /-- F2H -/
  | repne
  /-- F3H -/
  | rep
deriving DecidableEq, Repr, Inhabited

/-- The six segment registers (R106). -/
inductive Seg where
  | es
  | cs
  | ss
  | ds
  | fs
  | gs
deriving DecidableEq, Repr, Inhabited

/-- The eight general registers of the host, in the order of their numbers 0 to 7 (R103, R104). -/
inductive Reg where
  | eax
  | ecx
  | edx
  | ebx
  | esp
  | ebp
  | esi
  | edi
deriving DecidableEq, Repr, Inhabited

/-- The displacement of a 32-bit addressing form: mod 00, 01, 10 (R103). -/
inductive Disp32 where
  | none
  | d8 (d : BitVec 8)
  | d32 (d : BitVec 32)
deriving DecidableEq, Repr, Inhabited

/-- The displacement of a 16-bit addressing form: mod 00, 01, 10 (R105). -/
inductive Disp16 where
  | none
  | d8 (d : BitVec 8)
  | d16 (d : BitVec 16)
deriving DecidableEq, Repr, Inhabited

/-- The register sums of 16-bit addressing, rm = 0 to 7 (R105). -/
inductive Base16 where
  | bxsi
  | bxdi
  | bpsi
  | bpdi
  | si
  | di
  | bp
  | bx
deriving DecidableEq, Repr, Inhabited

/-- The addressing form of a memory operand. -/
inductive MemForm where
  /-- R103: a base register and a displacement. -/
  | base (r : Reg) (d : Disp32)
  /-- R103: mod 00, rm 101. -/
  | abs (d : BitVec 32)
  /-- R104: a SIB byte with a base register; no index where its field is 100B. -/
  | sib (scale : BitVec 2) (index : Option Reg) (base : Reg) (d : Disp32)
  /-- R104: a SIB byte with mod 00 and base field 101B. -/
  | sibAbs (scale : BitVec 2) (index : Option Reg) (d : BitVec 32)
  /-- R105: a 16-bit register sum and a displacement. -/
  | base16 (b : Base16) (d : Disp16)
  /-- R105: mod 00, rm 110. -/
  | abs16 (d : BitVec 16)
deriving DecidableEq, Repr, Inhabited

/-- True for the forms of R103 and R104, false for those of R105. -/
def MemForm.is32 : MemForm → Bool
  | .base _ _ => true
  | .abs _ => true
  | .sib _ _ _ _ => true
  | .sibAbs _ _ _ => true
  | .base16 _ _ => false
  | .abs16 _ => false

/-- The instructions, in the order of spec/opcode_table.json. Each carries the prefixes before its first opcode byte
(for a waiting form: those between 9BH and that byte). -/
inductive Instr where
  /-- D8 /0: FADD m32real (R242). -/
  | faddM32 (p : List Prefix) (m : MemForm)
  /-- D8 /1: FMUL m32real (R251). -/
  | fmulM32 (p : List Prefix) (m : MemForm)
  /-- D8 /2: FCOM m32real (R293). -/
  | fcomM32 (p : List Prefix) (m : MemForm)
  /-- D8 /3: FCOMP m32real (R294). -/
  | fcompM32 (p : List Prefix) (m : MemForm)
  /-- D8 /4: FSUB m32real (R245). -/
  | fsubM32 (p : List Prefix) (m : MemForm)
  /-- D8 /5: FSUBR m32real (R248). -/
  | fsubrM32 (p : List Prefix) (m : MemForm)
  /-- D8 /6: FDIV m32real (R254). -/
  | fdivM32 (p : List Prefix) (m : MemForm)
  /-- D8 /7: FDIVR m32real (R257). -/
  | fdivrM32 (p : List Prefix) (m : MemForm)
  /-- D8 C0..C7: FADD ST(0), ST(i) (R242). -/
  | faddSt0Sti (p : List Prefix) (i : StIdx)
  /-- D8 C8..CF: FMUL ST(0), ST(i) (R251). -/
  | fmulSt0Sti (p : List Prefix) (i : StIdx)
  /-- D8 D0..D7: FCOM ST(i) (R293). -/
  | fcomSti (p : List Prefix) (i : StIdx)
  /-- D8 D8..DF: FCOMP ST(i) (R294). -/
  | fcompSti (p : List Prefix) (i : StIdx)
  /-- D8 E0..E7: FSUB ST(0), ST(i) (R245). -/
  | fsubSt0Sti (p : List Prefix) (i : StIdx)
  /-- D8 E8..EF: FSUBR ST(0), ST(i) (R248). -/
  | fsubrSt0Sti (p : List Prefix) (i : StIdx)
  /-- D8 F0..F7: FDIV ST(0), ST(i) (R254). -/
  | fdivSt0Sti (p : List Prefix) (i : StIdx)
  /-- D8 F8..FF: FDIVR ST(0), ST(i) (R257). -/
  | fdivrSt0Sti (p : List Prefix) (i : StIdx)
  /-- D9 /0: FLD m32real (R201). -/
  | fldM32 (p : List Prefix) (m : MemForm)
  /-- D9 /1: RESERVED (R116). -/
  | reservedD9m1 (p : List Prefix) (m : MemForm)
  /-- D9 /2: FST m32real (R204). -/
  | fstM32 (p : List Prefix) (m : MemForm)
  /-- D9 /3: FSTP m32real (R206). -/
  | fstpM32 (p : List Prefix) (m : MemForm)
  /-- D9 /4: FLDENV m14/28byte (R362). -/
  | fldenv (p : List Prefix) (m : MemForm)
  /-- D9 /5: FLDCW m2byte (R354). -/
  | fldcw (p : List Prefix) (m : MemForm)
  /-- D9 /6: FNSTENV m14/28byte (R363). -/
  | fnstenv (p : List Prefix) (m : MemForm)
  /-- D9 /7: FNSTCW m2byte (R355). -/
  | fnstcw (p : List Prefix) (m : MemForm)
  /-- D9 C0..C7: FLD ST(i) (R203). -/
  | fldSti (p : List Prefix) (i : StIdx)
  /-- D9 C8..CF: FXCH ST(i) (R222). -/
  | fxch (p : List Prefix) (i : StIdx)
  /-- D9 D0: FNOP (R372). -/
  | fnop (p : List Prefix)
  /-- D9 D1: RESERVED (R116). -/
  | reservedD9D1 (p : List Prefix)
  /-- D9 D2..D3: RESERVED (R116). -/
  | reservedD9D2 (p : List Prefix) (low : BitVec 1)
  /-- D9 D4..D7: RESERVED (R116). -/
  | reservedD9D4 (p : List Prefix) (low : BitVec 2)
  /-- D9 D8..DF: RESERVED (R116). -/
  | reservedD9D8 (p : List Prefix) (low : BitVec 3)
  /-- D9 E0: FCHS (R261). -/
  | fchs (p : List Prefix)
  /-- D9 E1: FABS (R260). -/
  | fabs (p : List Prefix)
  /-- D9 E2..E3: RESERVED (R116). -/
  | reservedD9E2 (p : List Prefix) (low : BitVec 1)
  /-- D9 E4: FTST (R301). -/
  | ftst (p : List Prefix)
  /-- D9 E5: FXAM (R302). -/
  | fxam (p : List Prefix)
  /-- D9 E6..E7: RESERVED (R116). -/
  | reservedD9E6 (p : List Prefix) (low : BitVec 1)
  /-- D9 E8: FLD1 (R232). -/
  | fld1 (p : List Prefix)
  /-- D9 E9: FLDL2T (R234). -/
  | fldl2t (p : List Prefix)
  /-- D9 EA: FLDL2E (R235). -/
  | fldl2e (p : List Prefix)
  /-- D9 EB: FLDPI (R233). -/
  | fldpi (p : List Prefix)
  /-- D9 EC: FLDLG2 (R236). -/
  | fldlg2 (p : List Prefix)
  /-- D9 ED: FLDLN2 (R237). -/
  | fldln2 (p : List Prefix)
  /-- D9 EE: FLDZ (R231). -/
  | fldz (p : List Prefix)
  /-- D9 EF: RESERVED (R116). -/
  | reservedD9EF (p : List Prefix)
  /-- D9 F0: F2XM1 (R329). -/
  | f2xm1 (p : List Prefix)
  /-- D9 F1: FYL2X (R327). -/
  | fyl2x (p : List Prefix)
  /-- D9 F2: FPTAN (R324). -/
  | fptan (p : List Prefix)
  /-- D9 F3: FPATAN (R325). -/
  | fpatan (p : List Prefix)
  /-- D9 F4: FXTRACT (R266). -/
  | fxtract (p : List Prefix)
  /-- D9 F5: FPREM1 (R264). -/
  | fprem1 (p : List Prefix)
  /-- D9 F6: FDECSTP (R370). -/
  | fdecstp (p : List Prefix)
  /-- D9 F7: FINCSTP (R369). -/
  | fincstp (p : List Prefix)
  /-- D9 F8: FPREM (R263). -/
  | fprem (p : List Prefix)
  /-- D9 F9: FYL2XP1 (R328). -/
  | fyl2xp1 (p : List Prefix)
  /-- D9 FA: FSQRT (R262). -/
  | fsqrt (p : List Prefix)
  /-- D9 FB: FSINCOS (R323). -/
  | fsincos (p : List Prefix)
  /-- D9 FC: FRNDINT (R265). -/
  | frndint (p : List Prefix)
  /-- D9 FD: FSCALE (R330). -/
  | fscale (p : List Prefix)
  /-- D9 FE: FSIN (R321). -/
  | fsin (p : List Prefix)
  /-- D9 FF: FCOS (R322). -/
  | fcos (p : List Prefix)
  /-- DA /0: FIADD m32int (R244). -/
  | fiaddM32i (p : List Prefix) (m : MemForm)
  /-- DA /1: FIMUL m32int (R253). -/
  | fimulM32i (p : List Prefix) (m : MemForm)
  /-- DA /2: FICOM m32int (R299). -/
  | ficomM32i (p : List Prefix) (m : MemForm)
  /-- DA /3: FICOMP m32int (R300). -/
  | ficompM32i (p : List Prefix) (m : MemForm)
  /-- DA /4: FISUB m32int (R247). -/
  | fisubM32i (p : List Prefix) (m : MemForm)
  /-- DA /5: FISUBR m32int (R250). -/
  | fisubrM32i (p : List Prefix) (m : MemForm)
  /-- DA /6: FIDIV m32int (R256). -/
  | fidivM32i (p : List Prefix) (m : MemForm)
  /-- DA /7: FIDIVR m32int (R259). -/
  | fidivrM32i (p : List Prefix) (m : MemForm)
  /-- DA C0..C7: FCMOVB ST(0), ST(i) (R212). -/
  | fcmovb (p : List Prefix) (i : StIdx)
  /-- DA C8..CF: FCMOVE ST(0), ST(i) (R214). -/
  | fcmove (p : List Prefix) (i : StIdx)
  /-- DA D0..D7: FCMOVBE ST(0), ST(i) (R216). -/
  | fcmovbe (p : List Prefix) (i : StIdx)
  /-- DA D8..DF: FCMOVU ST(0), ST(i) (R218). -/
  | fcmovu (p : List Prefix) (i : StIdx)
  /-- DA E0..E7: RESERVED (R116). -/
  | reservedDAE0 (p : List Prefix) (low : BitVec 3)
  /-- DA E8: RESERVED (R116). -/
  | reservedDAE8 (p : List Prefix)
  /-- DA E9: FUCOMPP (R298). -/
  | fucompp (p : List Prefix)
  /-- DA EA..EB: RESERVED (R116). -/
  | reservedDAEA (p : List Prefix) (low : BitVec 1)
  /-- DA EC..EF: RESERVED (R116). -/
  | reservedDAEC (p : List Prefix) (low : BitVec 2)
  /-- DA F0..FF: RESERVED (R116). -/
  | reservedDAF0 (p : List Prefix) (low : BitVec 4)
  /-- DB /0: FILD m32int (R209). -/
  | fildM32i (p : List Prefix) (m : MemForm)
  /-- DB /1: RESERVED (R116). -/
  | reservedDBm1 (p : List Prefix) (m : MemForm)
  /-- DB /2: FIST m32int (R210). -/
  | fistM32i (p : List Prefix) (m : MemForm)
  /-- DB /3: FISTP m32int (R211). -/
  | fistpM32i (p : List Prefix) (m : MemForm)
  /-- DB /4: RESERVED (R116). -/
  | reservedDBm4 (p : List Prefix) (m : MemForm)
  /-- DB /5: FLD m80real (R202). -/
  | fldM80 (p : List Prefix) (m : MemForm)
  /-- DB /6: RESERVED (R116). -/
  | reservedDBm6 (p : List Prefix) (m : MemForm)
  /-- DB /7: FSTP m80real (R207). -/
  | fstpM80 (p : List Prefix) (m : MemForm)
  /-- DB C0..C7: FCMOVNB ST(0), ST(i) (R213). -/
  | fcmovnb (p : List Prefix) (i : StIdx)
  /-- DB C8..CF: FCMOVNE ST(0), ST(i) (R215). -/
  | fcmovne (p : List Prefix) (i : StIdx)
  /-- DB D0..D7: FCMOVNBE ST(0), ST(i) (R217). -/
  | fcmovnbe (p : List Prefix) (i : StIdx)
  /-- DB D8..DF: FCMOVNU ST(0), ST(i) (R219). -/
  | fcmovnu (p : List Prefix) (i : StIdx)
  /-- DB E0: FENI (R374). -/
  | feni (p : List Prefix)
  /-- DB E1: FDISI (R375). -/
  | fdisi (p : List Prefix)
  /-- DB E2: FNCLEX (R360). -/
  | fnclex (p : List Prefix)
  /-- DB E3: FNINIT (R352). -/
  | fninit (p : List Prefix)
  /-- DB E4: FSETPM (R376). -/
  | fsetpm (p : List Prefix)
  /-- DB E5: RESERVED (R116). -/
  | reservedDBE5 (p : List Prefix)
  /-- DB E6..E7: RESERVED (R116). -/
  | reservedDBE6 (p : List Prefix) (low : BitVec 1)
  /-- DB E8..EF: FUCOMI ST(0), ST(i) (R306). -/
  | fucomi (p : List Prefix) (i : StIdx)
  /-- DB F0..F7: FCOMI ST(0), ST(i) (R304). -/
  | fcomi (p : List Prefix) (i : StIdx)
  /-- DB F8..FF: RESERVED (R116). -/
  | reservedDBF8 (p : List Prefix) (low : BitVec 3)
  /-- DC /0: FADD m64real (R242). -/
  | faddM64 (p : List Prefix) (m : MemForm)
  /-- DC /1: FMUL m64real (R251). -/
  | fmulM64 (p : List Prefix) (m : MemForm)
  /-- DC /2: FCOM m64real (R293). -/
  | fcomM64 (p : List Prefix) (m : MemForm)
  /-- DC /3: FCOMP m64real (R294). -/
  | fcompM64 (p : List Prefix) (m : MemForm)
  /-- DC /4: FSUB m64real (R245). -/
  | fsubM64 (p : List Prefix) (m : MemForm)
  /-- DC /5: FSUBR m64real (R248). -/
  | fsubrM64 (p : List Prefix) (m : MemForm)
  /-- DC /6: FDIV m64real (R254). -/
  | fdivM64 (p : List Prefix) (m : MemForm)
  /-- DC /7: FDIVR m64real (R257). -/
  | fdivrM64 (p : List Prefix) (m : MemForm)
  /-- DC C0..C7: FADD ST(i), ST(0) (R242). -/
  | faddStiSt0 (p : List Prefix) (i : StIdx)
  /-- DC C8..CF: FMUL ST(i), ST(0) (R251). -/
  | fmulStiSt0 (p : List Prefix) (i : StIdx)
  /-- DC D0..DF: RESERVED (R116). -/
  | reservedDCD0 (p : List Prefix) (low : BitVec 4)
  /-- DC E0..E7: FSUBR ST(i), ST(0) (R248). -/
  | fsubrStiSt0 (p : List Prefix) (i : StIdx)
  /-- DC E8..EF: FSUB ST(i), ST(0) (R245). -/
  | fsubStiSt0 (p : List Prefix) (i : StIdx)
  /-- DC F0..F7: FDIVR ST(i), ST(0) (R257). -/
  | fdivrStiSt0 (p : List Prefix) (i : StIdx)
  /-- DC F8..FF: FDIV ST(i), ST(0) (R254). -/
  | fdivStiSt0 (p : List Prefix) (i : StIdx)
  /-- DD /0: FLD m64real (R201). -/
  | fldM64 (p : List Prefix) (m : MemForm)
  /-- DD /1: RESERVED (R116). -/
  | reservedDDm1 (p : List Prefix) (m : MemForm)
  /-- DD /2: FST m64real (R204). -/
  | fstM64 (p : List Prefix) (m : MemForm)
  /-- DD /3: FSTP m64real (R206). -/
  | fstpM64 (p : List Prefix) (m : MemForm)
  /-- DD /4: FRSTOR m94/108byte (R365). -/
  | frstor (p : List Prefix) (m : MemForm)
  /-- DD /5: RESERVED (R116). -/
  | reservedDDm5 (p : List Prefix) (m : MemForm)
  /-- DD /6: FNSAVE m94/108byte (R367). -/
  | fnsave (p : List Prefix) (m : MemForm)
  /-- DD /7: FNSTSW m2byte (R357). -/
  | fnstswM16 (p : List Prefix) (m : MemForm)
  /-- DD C0..C7: FFREE ST(i) (R371). -/
  | ffree (p : List Prefix) (i : StIdx)
  /-- DD C8..CF: RESERVED (R116). -/
  | reservedDDC8 (p : List Prefix) (low : BitVec 3)
  /-- DD D0..D7: FST ST(i) (R205). -/
  | fstSti (p : List Prefix) (i : StIdx)
  /-- DD D8..DF: FSTP ST(i) (R208). -/
  | fstpSti (p : List Prefix) (i : StIdx)
  /-- DD E0..E7: FUCOM ST(i) (R296). -/
  | fucom (p : List Prefix) (i : StIdx)
  /-- DD E8..EF: FUCOMP ST(i) (R297). -/
  | fucomp (p : List Prefix) (i : StIdx)
  /-- DD F0..FF: RESERVED (R116). -/
  | reservedDDF0 (p : List Prefix) (low : BitVec 4)
  /-- DE /0: FIADD m16int (R244). -/
  | fiaddM16i (p : List Prefix) (m : MemForm)
  /-- DE /1: FIMUL m16int (R253). -/
  | fimulM16i (p : List Prefix) (m : MemForm)
  /-- DE /2: FICOM m16int (R299). -/
  | ficomM16i (p : List Prefix) (m : MemForm)
  /-- DE /3: FICOMP m16int (R300). -/
  | ficompM16i (p : List Prefix) (m : MemForm)
  /-- DE /4: FISUB m16int (R247). -/
  | fisubM16i (p : List Prefix) (m : MemForm)
  /-- DE /5: FISUBR m16int (R250). -/
  | fisubrM16i (p : List Prefix) (m : MemForm)
  /-- DE /6: FIDIV m16int (R256). -/
  | fidivM16i (p : List Prefix) (m : MemForm)
  /-- DE /7: FIDIVR m16int (R259). -/
  | fidivrM16i (p : List Prefix) (m : MemForm)
  /-- DE C0..C7: FADDP ST(i), ST(0) (R243). -/
  | faddp (p : List Prefix) (i : StIdx)
  /-- DE C8..CF: FMULP ST(i), ST(0) (R252). -/
  | fmulp (p : List Prefix) (i : StIdx)
  /-- DE D0..D7: RESERVED (R116). -/
  | reservedDED0 (p : List Prefix) (low : BitVec 3)
  /-- DE D8: RESERVED (R116). -/
  | reservedDED8 (p : List Prefix)
  /-- DE D9: FCOMPP (R295). -/
  | fcompp (p : List Prefix)
  /-- DE DA..DB: RESERVED (R116). -/
  | reservedDEDA (p : List Prefix) (low : BitVec 1)
  /-- DE DC..DF: RESERVED (R116). -/
  | reservedDEDC (p : List Prefix) (low : BitVec 2)
  /-- DE E0..E7: FSUBRP ST(i), ST(0) (R249). -/
  | fsubrp (p : List Prefix) (i : StIdx)
  /-- DE E8..EF: FSUBP ST(i), ST(0) (R246). -/
  | fsubp (p : List Prefix) (i : StIdx)
  /-- DE F0..F7: FDIVRP ST(i), ST(0) (R258). -/
  | fdivrp (p : List Prefix) (i : StIdx)
  /-- DE F8..FF: FDIVP ST(i), ST(0) (R255). -/
  | fdivp (p : List Prefix) (i : StIdx)
  /-- DF /0: FILD m16int (R209). -/
  | fildM16i (p : List Prefix) (m : MemForm)
  /-- DF /1: RESERVED (R116). -/
  | reservedDFm1 (p : List Prefix) (m : MemForm)
  /-- DF /2: FIST m16int (R210). -/
  | fistM16i (p : List Prefix) (m : MemForm)
  /-- DF /3: FISTP m16int (R211). -/
  | fistpM16i (p : List Prefix) (m : MemForm)
  /-- DF /4: FBLD m80bcd (R220). -/
  | fbld (p : List Prefix) (m : MemForm)
  /-- DF /5: FILD m64int (R209). -/
  | fildM64i (p : List Prefix) (m : MemForm)
  /-- DF /6: FBSTP m80bcd (R221). -/
  | fbstp (p : List Prefix) (m : MemForm)
  /-- DF /7: FISTP m64int (R211). -/
  | fistpM64i (p : List Prefix) (m : MemForm)
  /-- DF C0..DF: RESERVED (R116). -/
  | reservedDFC0 (p : List Prefix) (low : BitVec 5)
  /-- DF E0: FNSTSW AX (R358). -/
  | fnstswAx (p : List Prefix)
  /-- DF E1: RESERVED (R116). -/
  | reservedDFE1 (p : List Prefix)
  /-- DF E2..E3: RESERVED (R116). -/
  | reservedDFE2 (p : List Prefix) (low : BitVec 1)
  /-- DF E4..E7: RESERVED (R116). -/
  | reservedDFE4 (p : List Prefix) (low : BitVec 2)
  /-- DF E8..EF: FUCOMIP ST(0), ST(i) (R307). -/
  | fucomip (p : List Prefix) (i : StIdx)
  /-- DF F0..F7: FCOMIP ST(0), ST(i) (R305). -/
  | fcomip (p : List Prefix) (i : StIdx)
  /-- DF F8..FF: RESERVED (R116). -/
  | reservedDFF8 (p : List Prefix) (low : BitVec 3)
  /-- 9B: WAIT (R373). -/
  | wait (p : List Prefix)
  /-- 9B DB E3: FINIT (R353). -/
  | finit (p : List Prefix)
  /-- 9B DB E2: FCLEX (R361). -/
  | fclex (p : List Prefix)
  /-- 9B D9 /7: FSTCW m2byte (R356). -/
  | fstcw (p : List Prefix) (m : MemForm)
  /-- 9B DD /7: FSTSW m2byte (R359). -/
  | fstswM16 (p : List Prefix) (m : MemForm)
  /-- 9B DF E0: FSTSW AX (R359). -/
  | fstswAx (p : List Prefix)
  /-- 9B D9 /6: FSTENV m14/28byte (R364). -/
  | fstenv (p : List Prefix) (m : MemForm)
  /-- 9B DD /6: FSAVE m94/108byte (R368). -/
  | fsave (p : List Prefix) (m : MemForm)
deriving DecidableEq, Repr

/-- The prefixes an instruction carries (R106). -/
def Instr.prefixes : Instr → List Prefix
  | .faddM32 p _ => p
  | .fmulM32 p _ => p
  | .fcomM32 p _ => p
  | .fcompM32 p _ => p
  | .fsubM32 p _ => p
  | .fsubrM32 p _ => p
  | .fdivM32 p _ => p
  | .fdivrM32 p _ => p
  | .faddSt0Sti p _ => p
  | .fmulSt0Sti p _ => p
  | .fcomSti p _ => p
  | .fcompSti p _ => p
  | .fsubSt0Sti p _ => p
  | .fsubrSt0Sti p _ => p
  | .fdivSt0Sti p _ => p
  | .fdivrSt0Sti p _ => p
  | .fldM32 p _ => p
  | .reservedD9m1 p _ => p
  | .fstM32 p _ => p
  | .fstpM32 p _ => p
  | .fldenv p _ => p
  | .fldcw p _ => p
  | .fnstenv p _ => p
  | .fnstcw p _ => p
  | .fldSti p _ => p
  | .fxch p _ => p
  | .fnop p => p
  | .reservedD9D1 p => p
  | .reservedD9D2 p _ => p
  | .reservedD9D4 p _ => p
  | .reservedD9D8 p _ => p
  | .fchs p => p
  | .fabs p => p
  | .reservedD9E2 p _ => p
  | .ftst p => p
  | .fxam p => p
  | .reservedD9E6 p _ => p
  | .fld1 p => p
  | .fldl2t p => p
  | .fldl2e p => p
  | .fldpi p => p
  | .fldlg2 p => p
  | .fldln2 p => p
  | .fldz p => p
  | .reservedD9EF p => p
  | .f2xm1 p => p
  | .fyl2x p => p
  | .fptan p => p
  | .fpatan p => p
  | .fxtract p => p
  | .fprem1 p => p
  | .fdecstp p => p
  | .fincstp p => p
  | .fprem p => p
  | .fyl2xp1 p => p
  | .fsqrt p => p
  | .fsincos p => p
  | .frndint p => p
  | .fscale p => p
  | .fsin p => p
  | .fcos p => p
  | .fiaddM32i p _ => p
  | .fimulM32i p _ => p
  | .ficomM32i p _ => p
  | .ficompM32i p _ => p
  | .fisubM32i p _ => p
  | .fisubrM32i p _ => p
  | .fidivM32i p _ => p
  | .fidivrM32i p _ => p
  | .fcmovb p _ => p
  | .fcmove p _ => p
  | .fcmovbe p _ => p
  | .fcmovu p _ => p
  | .reservedDAE0 p _ => p
  | .reservedDAE8 p => p
  | .fucompp p => p
  | .reservedDAEA p _ => p
  | .reservedDAEC p _ => p
  | .reservedDAF0 p _ => p
  | .fildM32i p _ => p
  | .reservedDBm1 p _ => p
  | .fistM32i p _ => p
  | .fistpM32i p _ => p
  | .reservedDBm4 p _ => p
  | .fldM80 p _ => p
  | .reservedDBm6 p _ => p
  | .fstpM80 p _ => p
  | .fcmovnb p _ => p
  | .fcmovne p _ => p
  | .fcmovnbe p _ => p
  | .fcmovnu p _ => p
  | .feni p => p
  | .fdisi p => p
  | .fnclex p => p
  | .fninit p => p
  | .fsetpm p => p
  | .reservedDBE5 p => p
  | .reservedDBE6 p _ => p
  | .fucomi p _ => p
  | .fcomi p _ => p
  | .reservedDBF8 p _ => p
  | .faddM64 p _ => p
  | .fmulM64 p _ => p
  | .fcomM64 p _ => p
  | .fcompM64 p _ => p
  | .fsubM64 p _ => p
  | .fsubrM64 p _ => p
  | .fdivM64 p _ => p
  | .fdivrM64 p _ => p
  | .faddStiSt0 p _ => p
  | .fmulStiSt0 p _ => p
  | .reservedDCD0 p _ => p
  | .fsubrStiSt0 p _ => p
  | .fsubStiSt0 p _ => p
  | .fdivrStiSt0 p _ => p
  | .fdivStiSt0 p _ => p
  | .fldM64 p _ => p
  | .reservedDDm1 p _ => p
  | .fstM64 p _ => p
  | .fstpM64 p _ => p
  | .frstor p _ => p
  | .reservedDDm5 p _ => p
  | .fnsave p _ => p
  | .fnstswM16 p _ => p
  | .ffree p _ => p
  | .reservedDDC8 p _ => p
  | .fstSti p _ => p
  | .fstpSti p _ => p
  | .fucom p _ => p
  | .fucomp p _ => p
  | .reservedDDF0 p _ => p
  | .fiaddM16i p _ => p
  | .fimulM16i p _ => p
  | .ficomM16i p _ => p
  | .ficompM16i p _ => p
  | .fisubM16i p _ => p
  | .fisubrM16i p _ => p
  | .fidivM16i p _ => p
  | .fidivrM16i p _ => p
  | .faddp p _ => p
  | .fmulp p _ => p
  | .reservedDED0 p _ => p
  | .reservedDED8 p => p
  | .fcompp p => p
  | .reservedDEDA p _ => p
  | .reservedDEDC p _ => p
  | .fsubrp p _ => p
  | .fsubp p _ => p
  | .fdivrp p _ => p
  | .fdivp p _ => p
  | .fildM16i p _ => p
  | .reservedDFm1 p _ => p
  | .fistM16i p _ => p
  | .fistpM16i p _ => p
  | .fbld p _ => p
  | .fildM64i p _ => p
  | .fbstp p _ => p
  | .fistpM64i p _ => p
  | .reservedDFC0 p _ => p
  | .fnstswAx p => p
  | .reservedDFE1 p => p
  | .reservedDFE2 p _ => p
  | .reservedDFE4 p _ => p
  | .fucomip p _ => p
  | .fcomip p _ => p
  | .reservedDFF8 p _ => p
  | .wait p => p
  | .finit p => p
  | .fclex p => p
  | .fstcw p _ => p
  | .fstswM16 p _ => p
  | .fstswAx p => p
  | .fstenv p _ => p
  | .fsave p _ => p

/-- The addressing form of the memory operand, where there is one (R103 to R105). -/
def Instr.memForm : Instr → Option MemForm
  | .faddM32 _ m => some m
  | .fmulM32 _ m => some m
  | .fcomM32 _ m => some m
  | .fcompM32 _ m => some m
  | .fsubM32 _ m => some m
  | .fsubrM32 _ m => some m
  | .fdivM32 _ m => some m
  | .fdivrM32 _ m => some m
  | .faddSt0Sti _ _ => none
  | .fmulSt0Sti _ _ => none
  | .fcomSti _ _ => none
  | .fcompSti _ _ => none
  | .fsubSt0Sti _ _ => none
  | .fsubrSt0Sti _ _ => none
  | .fdivSt0Sti _ _ => none
  | .fdivrSt0Sti _ _ => none
  | .fldM32 _ m => some m
  | .reservedD9m1 _ m => some m
  | .fstM32 _ m => some m
  | .fstpM32 _ m => some m
  | .fldenv _ m => some m
  | .fldcw _ m => some m
  | .fnstenv _ m => some m
  | .fnstcw _ m => some m
  | .fldSti _ _ => none
  | .fxch _ _ => none
  | .fnop _ => none
  | .reservedD9D1 _ => none
  | .reservedD9D2 _ _ => none
  | .reservedD9D4 _ _ => none
  | .reservedD9D8 _ _ => none
  | .fchs _ => none
  | .fabs _ => none
  | .reservedD9E2 _ _ => none
  | .ftst _ => none
  | .fxam _ => none
  | .reservedD9E6 _ _ => none
  | .fld1 _ => none
  | .fldl2t _ => none
  | .fldl2e _ => none
  | .fldpi _ => none
  | .fldlg2 _ => none
  | .fldln2 _ => none
  | .fldz _ => none
  | .reservedD9EF _ => none
  | .f2xm1 _ => none
  | .fyl2x _ => none
  | .fptan _ => none
  | .fpatan _ => none
  | .fxtract _ => none
  | .fprem1 _ => none
  | .fdecstp _ => none
  | .fincstp _ => none
  | .fprem _ => none
  | .fyl2xp1 _ => none
  | .fsqrt _ => none
  | .fsincos _ => none
  | .frndint _ => none
  | .fscale _ => none
  | .fsin _ => none
  | .fcos _ => none
  | .fiaddM32i _ m => some m
  | .fimulM32i _ m => some m
  | .ficomM32i _ m => some m
  | .ficompM32i _ m => some m
  | .fisubM32i _ m => some m
  | .fisubrM32i _ m => some m
  | .fidivM32i _ m => some m
  | .fidivrM32i _ m => some m
  | .fcmovb _ _ => none
  | .fcmove _ _ => none
  | .fcmovbe _ _ => none
  | .fcmovu _ _ => none
  | .reservedDAE0 _ _ => none
  | .reservedDAE8 _ => none
  | .fucompp _ => none
  | .reservedDAEA _ _ => none
  | .reservedDAEC _ _ => none
  | .reservedDAF0 _ _ => none
  | .fildM32i _ m => some m
  | .reservedDBm1 _ m => some m
  | .fistM32i _ m => some m
  | .fistpM32i _ m => some m
  | .reservedDBm4 _ m => some m
  | .fldM80 _ m => some m
  | .reservedDBm6 _ m => some m
  | .fstpM80 _ m => some m
  | .fcmovnb _ _ => none
  | .fcmovne _ _ => none
  | .fcmovnbe _ _ => none
  | .fcmovnu _ _ => none
  | .feni _ => none
  | .fdisi _ => none
  | .fnclex _ => none
  | .fninit _ => none
  | .fsetpm _ => none
  | .reservedDBE5 _ => none
  | .reservedDBE6 _ _ => none
  | .fucomi _ _ => none
  | .fcomi _ _ => none
  | .reservedDBF8 _ _ => none
  | .faddM64 _ m => some m
  | .fmulM64 _ m => some m
  | .fcomM64 _ m => some m
  | .fcompM64 _ m => some m
  | .fsubM64 _ m => some m
  | .fsubrM64 _ m => some m
  | .fdivM64 _ m => some m
  | .fdivrM64 _ m => some m
  | .faddStiSt0 _ _ => none
  | .fmulStiSt0 _ _ => none
  | .reservedDCD0 _ _ => none
  | .fsubrStiSt0 _ _ => none
  | .fsubStiSt0 _ _ => none
  | .fdivrStiSt0 _ _ => none
  | .fdivStiSt0 _ _ => none
  | .fldM64 _ m => some m
  | .reservedDDm1 _ m => some m
  | .fstM64 _ m => some m
  | .fstpM64 _ m => some m
  | .frstor _ m => some m
  | .reservedDDm5 _ m => some m
  | .fnsave _ m => some m
  | .fnstswM16 _ m => some m
  | .ffree _ _ => none
  | .reservedDDC8 _ _ => none
  | .fstSti _ _ => none
  | .fstpSti _ _ => none
  | .fucom _ _ => none
  | .fucomp _ _ => none
  | .reservedDDF0 _ _ => none
  | .fiaddM16i _ m => some m
  | .fimulM16i _ m => some m
  | .ficomM16i _ m => some m
  | .ficompM16i _ m => some m
  | .fisubM16i _ m => some m
  | .fisubrM16i _ m => some m
  | .fidivM16i _ m => some m
  | .fidivrM16i _ m => some m
  | .faddp _ _ => none
  | .fmulp _ _ => none
  | .reservedDED0 _ _ => none
  | .reservedDED8 _ => none
  | .fcompp _ => none
  | .reservedDEDA _ _ => none
  | .reservedDEDC _ _ => none
  | .fsubrp _ _ => none
  | .fsubp _ _ => none
  | .fdivrp _ _ => none
  | .fdivp _ _ => none
  | .fildM16i _ m => some m
  | .reservedDFm1 _ m => some m
  | .fistM16i _ m => some m
  | .fistpM16i _ m => some m
  | .fbld _ m => some m
  | .fildM64i _ m => some m
  | .fbstp _ m => some m
  | .fistpM64i _ m => some m
  | .reservedDFC0 _ _ => none
  | .fnstswAx _ => none
  | .reservedDFE1 _ => none
  | .reservedDFE2 _ _ => none
  | .reservedDFE4 _ _ => none
  | .fucomip _ _ => none
  | .fcomip _ _ => none
  | .reservedDFF8 _ _ => none
  | .wait _ => none
  | .finit _ => none
  | .fclex _ => none
  | .fstcw _ m => some m
  | .fstswM16 _ m => some m
  | .fstswAx _ => none
  | .fstenv _ m => some m
  | .fsave _ m => some m

end Sys2Proof
end

