-- ==== Sys2Proof/WellFormed.lean ====
section
/-! DEFINITION. The instruction terms that are instructions: the operand forms the encoding of spec/30_encoding.md can
express (R103 to R106, R119). -/

namespace Sys2Proof

/-- 32-bit addressing holds: the code segment's default, toggled by prefix 67H (R103, R105, R106). -/
def addr32 (code32 : Bool) (p : List Prefix) : Bool := code32 ^^ p.contains .addrSize

/-- 32-bit operand size holds: the code segment's default, toggled by prefix 66H (R106). -/
def oper32 (code32 : Bool) (p : List Prefix) : Bool := code32 ^^ p.contains .opSize

/-- An addressing form the encoding can express: ESP as a base and as an index, and EBP and BP without a displacement,
have their codes taken by other forms (R103, R104, R105). -/
def MemForm.expressible : MemForm → Bool
  | .base r d => r != .esp && !(r == .ebp && d == .none)
  | .abs _ => true
  | .sib _ x b d => x != some .esp && !(b == .ebp && d == .none)
  | .sibAbs _ x _ => x != some .esp
  | .base16 b d => !(b == .bp && d == .none)
  | .abs16 _ => true

/-- The bytes of a displacement. -/
def Disp32.size : Disp32 → Nat
  | .none => 0
  | .d8 _ => 1
  | .d32 _ => 4

/-- The bytes of a displacement. -/
def Disp16.size : Disp16 → Nat
  | .none => 0
  | .d8 _ => 1
  | .d16 _ => 2

/-- The bytes after the second opcode byte (R119). -/
def MemForm.size : MemForm → Nat
  | .base _ d => d.size
  | .abs _ => 4
  | .sib _ _ _ d => 1 + d.size
  | .sibAbs _ _ _ => 5
  | .base16 _ d => d.size
  | .abs16 _ => 2

/-- The opcode bytes of one processor instruction: WAIT has one, an ESC instruction two (R119). -/
def Instr.opcodeSize : Instr → Nat
  | .wait _ => 1
  | _ => 2

/-- The length in bytes, without the 9BH of a waiting form (R119). -/
def Instr.size (i : Instr) : Nat :=
  i.prefixes.length + i.opcodeSize + (i.memForm.map MemForm.size).getD 0

/-- The prefixes are those that have a meaning before an FPU instruction (R106): no LOCK, no REP. -/
def prefixesAllowed (p : List Prefix) : Bool :=
  !p.contains .lock && !p.contains .repne && !p.contains .rep

/-- An instruction of a code segment whose default size is 32 bits (`code32`) or 16: allowed prefixes, at most 15 bytes,
and an addressing form of the address size in force. -/
def Instr.wellFormed (code32 : Bool) (i : Instr) : Bool :=
  prefixesAllowed i.prefixes && decide (i.size ≤ 15) &&
    match i.memForm with
    | none => true
    | some m => (m.is32 == addr32 code32 i.prefixes) && m.expressible

end Sys2Proof
end

