-- ==== Sys2Proof/Decode.lean ====
section
/-! DEFINITION. The decoder of R123, total on any bytes, and after it the encoder, both from the tables of
spec/30_encoding.md. -/

namespace Sys2Proof

/-- Why bytes are not an FPU instruction. -/
inductive DecodeError where
  /-- The bytes end inside the instruction. -/
  | truncated
  /-- The first opcode byte is not D8H to DFH nor 9BH: an instruction of the host (R123). -/
  | notFpu (b : Byte)
  /-- LOCK before an FPU instruction (R106). -/
  | lockPrefix
  /-- REP or REPNE before an FPU instruction (R106). -/
  | repPrefix
  /-- More than 15 bytes (R119). -/
  | tooLong
deriving DecidableEq, Repr

/-! ### Prefixes (R106) -/

/-- The prefix a byte is. -/
def prefixOf (b : Byte) : Option Prefix :=
  if b = 0x26#8 then some .es
  else if b = 0x2E#8 then some .cs
  else if b = 0x36#8 then some .ss
  else if b = 0x3E#8 then some .ds
  else if b = 0x64#8 then some .fs
  else if b = 0x65#8 then some .gs
  else if b = 0x67#8 then some .addrSize
  else if b = 0x66#8 then some .opSize
  else if b = 0xF0#8 then some .lock
  else if b = 0xF2#8 then some .repne
  else if b = 0xF3#8 then some .rep
  else none

/-- The prefixes in front of the first opcode byte, and the bytes from that byte on. -/
def takePrefixes : List Byte → List Prefix × List Byte
  | [] => ([], [])
  | b :: bs =>
    match prefixOf b with
    | some q => (q :: (takePrefixes bs).1, (takePrefixes bs).2)
    | none => ([], b :: bs)

/-! ### Addressing forms (R103 to R105) -/

/-- Two little-endian bytes (R72). -/
def le16 (a b : Byte) : BitVec 16 := b ++ a

/-- Four little-endian bytes (R72). -/
def le32 (a b c d : Byte) : BitVec 32 := d ++ c ++ b ++ a

/-- The general register of a number. -/
def regOf (x : BitVec 3) : Reg :=
  match x with
  | 0#3 => .eax
  | 1#3 => .ecx
  | 2#3 => .edx
  | 3#3 => .ebx
  | 4#3 => .esp
  | 5#3 => .ebp
  | 6#3 => .esi
  | 7#3 => .edi

/-- The index register of a SIB byte: 100B means none (R104). -/
def indexOf (x : BitVec 3) : Option Reg := if x = 4#3 then none else some (regOf x)

/-- The register sum of 16-bit addressing (R105). -/
def base16Of (x : BitVec 3) : Base16 :=
  match x with
  | 0#3 => .bxsi
  | 1#3 => .bxdi
  | 2#3 => .bpsi
  | 3#3 => .bpdi
  | 4#3 => .si
  | 5#3 => .di
  | 6#3 => .bp
  | 7#3 => .bx

/-- The displacement that mod 00, 01, 10 selects with 32-bit addressing. -/
def takeDisp32 (mod : BitVec 2) (bs : List Byte) : Option (Disp32 × List Byte) :=
  if mod = 0#2 then some (.none, bs)
  else if mod = 1#2 then
    match bs with
    | a :: r => some (.d8 a, r)
    | _ => none
  else
    match bs with
    | a :: b :: c :: d :: r => some (.d32 (le32 a b c d), r)
    | _ => none

/-- The displacement that mod 00, 01, 10 selects with 16-bit addressing. -/
def takeDisp16 (mod : BitVec 2) (bs : List Byte) : Option (Disp16 × List Byte) :=
  if mod = 0#2 then some (.none, bs)
  else if mod = 1#2 then
    match bs with
    | a :: r => some (.d8 a, r)
    | _ => none
  else
    match bs with
    | a :: b :: r => some (.d16 (le16 a b), r)
    | _ => none

/-- R104: the SIB byte and what follows it. -/
def takeSib (mod : BitVec 2) (bs : List Byte) : Option (MemForm × List Byte) :=
  match bs with
  | [] => none
  | sib :: r =>
    let scale := sib.extractLsb' 6 2
    let index := indexOf (sib.extractLsb' 3 3)
    let base := sib.extractLsb' 0 3
    if base = 5#3 ∧ mod = 0#2 then
      match r with
      | a :: b :: c :: d :: r' => some (.sibAbs scale index (le32 a b c d), r')
      | _ => none
    else
      (takeDisp32 mod r).map fun x => (.sib scale index (regOf base) x.1, x.2)

/-- R103, mod other than 11. -/
def takeMem32 (mod : BitVec 2) (rm : BitVec 3) (bs : List Byte) : Option (MemForm × List Byte) :=
  if rm = 4#3 then takeSib mod bs
  else if rm = 5#3 ∧ mod = 0#2 then
    match bs with
    | a :: b :: c :: d :: r => some (.abs (le32 a b c d), r)
    | _ => none
  else
    (takeDisp32 mod bs).map fun x => (.base (regOf rm) x.1, x.2)

/-- R105, mod other than 11. -/
def takeMem16 (mod : BitVec 2) (rm : BitVec 3) (bs : List Byte) : Option (MemForm × List Byte) :=
  if rm = 6#3 ∧ mod = 0#2 then
    match bs with
    | a :: b :: r => some (.abs16 (le16 a b), r)
    | _ => none
  else
    (takeDisp16 mod bs).map fun x => (.base16 (base16Of rm) x.1, x.2)

/-- The addressing form of the address size in force. -/
def takeMem (a32 : Bool) (mod : BitVec 2) (rm : BitVec 3) (bs : List Byte) : Option (MemForm × List Byte) :=
  if a32 then takeMem32 mod rm bs else takeMem16 mod rm bs

/-! ### The opcode map -/

/-- The memory-form rows of R108 to R115, by the low three bits of the first byte and the reg field. -/
def memInstr (lo reg : BitVec 3) (p : List Prefix) (m : MemForm) : Instr :=
  match lo, reg with
  | 0#3, 0#3 => .faddM32 p m
  | 0#3, 1#3 => .fmulM32 p m
  | 0#3, 2#3 => .fcomM32 p m
  | 0#3, 3#3 => .fcompM32 p m
  | 0#3, 4#3 => .fsubM32 p m
  | 0#3, 5#3 => .fsubrM32 p m
  | 0#3, 6#3 => .fdivM32 p m
  | 0#3, 7#3 => .fdivrM32 p m
  | 1#3, 0#3 => .fldM32 p m
  | 1#3, 1#3 => .reservedD9m1 p m
  | 1#3, 2#3 => .fstM32 p m
  | 1#3, 3#3 => .fstpM32 p m
  | 1#3, 4#3 => .fldenv p m
  | 1#3, 5#3 => .fldcw p m
  | 1#3, 6#3 => .fnstenv p m
  | 1#3, 7#3 => .fnstcw p m
  | 2#3, 0#3 => .fiaddM32i p m
  | 2#3, 1#3 => .fimulM32i p m
  | 2#3, 2#3 => .ficomM32i p m
  | 2#3, 3#3 => .ficompM32i p m
  | 2#3, 4#3 => .fisubM32i p m
  | 2#3, 5#3 => .fisubrM32i p m
  | 2#3, 6#3 => .fidivM32i p m
  | 2#3, 7#3 => .fidivrM32i p m
  | 3#3, 0#3 => .fildM32i p m
  | 3#3, 1#3 => .reservedDBm1 p m
  | 3#3, 2#3 => .fistM32i p m
  | 3#3, 3#3 => .fistpM32i p m
  | 3#3, 4#3 => .reservedDBm4 p m
  | 3#3, 5#3 => .fldM80 p m
  | 3#3, 6#3 => .reservedDBm6 p m
  | 3#3, 7#3 => .fstpM80 p m
  | 4#3, 0#3 => .faddM64 p m
  | 4#3, 1#3 => .fmulM64 p m
  | 4#3, 2#3 => .fcomM64 p m
  | 4#3, 3#3 => .fcompM64 p m
  | 4#3, 4#3 => .fsubM64 p m
  | 4#3, 5#3 => .fsubrM64 p m
  | 4#3, 6#3 => .fdivM64 p m
  | 4#3, 7#3 => .fdivrM64 p m
  | 5#3, 0#3 => .fldM64 p m
  | 5#3, 1#3 => .reservedDDm1 p m
  | 5#3, 2#3 => .fstM64 p m
  | 5#3, 3#3 => .fstpM64 p m
  | 5#3, 4#3 => .frstor p m
  | 5#3, 5#3 => .reservedDDm5 p m
  | 5#3, 6#3 => .fnsave p m
  | 5#3, 7#3 => .fnstswM16 p m
  | 6#3, 0#3 => .fiaddM16i p m
  | 6#3, 1#3 => .fimulM16i p m
  | 6#3, 2#3 => .ficomM16i p m
  | 6#3, 3#3 => .ficompM16i p m
  | 6#3, 4#3 => .fisubM16i p m
  | 6#3, 5#3 => .fisubrM16i p m
  | 6#3, 6#3 => .fidivM16i p m
  | 6#3, 7#3 => .fidivrM16i p m
  | 7#3, 0#3 => .fildM16i p m
  | 7#3, 1#3 => .reservedDFm1 p m
  | 7#3, 2#3 => .fistM16i p m
  | 7#3, 3#3 => .fistpM16i p m
  | 7#3, 4#3 => .fbld p m
  | 7#3, 5#3 => .fildM64i p m
  | 7#3, 6#3 => .fbstp p m
  | 7#3, 7#3 => .fistpM64i p m

/-- The register-form rows of R108 to R115, by the low three bits of the first byte and the reg and rm fields. -/
def regInstr (lo hi rm : BitVec 3) (p : List Prefix) : Instr :=
  match lo, hi with
  | 0#3, 0#3 => .faddSt0Sti p rm
  | 0#3, 1#3 => .fmulSt0Sti p rm
  | 0#3, 2#3 => .fcomSti p rm
  | 0#3, 3#3 => .fcompSti p rm
  | 0#3, 4#3 => .fsubSt0Sti p rm
  | 0#3, 5#3 => .fsubrSt0Sti p rm
  | 0#3, 6#3 => .fdivSt0Sti p rm
  | 0#3, 7#3 => .fdivrSt0Sti p rm
  | 1#3, 0#3 => .fldSti p rm
  | 1#3, 1#3 => .fxch p rm
  | 1#3, 2#3 =>
    match rm with
    | 0#3 => .fnop p
    | 1#3 => .reservedD9D1 p
    | 2#3 => .reservedD9D2 p 0#1
    | 3#3 => .reservedD9D2 p 1#1
    | 4#3 => .reservedD9D4 p 0#2
    | 5#3 => .reservedD9D4 p 1#2
    | 6#3 => .reservedD9D4 p 2#2
    | 7#3 => .reservedD9D4 p 3#2
  | 1#3, 3#3 => .reservedD9D8 p rm
  | 1#3, 4#3 =>
    match rm with
    | 0#3 => .fchs p
    | 1#3 => .fabs p
    | 2#3 => .reservedD9E2 p 0#1
    | 3#3 => .reservedD9E2 p 1#1
    | 4#3 => .ftst p
    | 5#3 => .fxam p
    | 6#3 => .reservedD9E6 p 0#1
    | 7#3 => .reservedD9E6 p 1#1
  | 1#3, 5#3 =>
    match rm with
    | 0#3 => .fld1 p
    | 1#3 => .fldl2t p
    | 2#3 => .fldl2e p
    | 3#3 => .fldpi p
    | 4#3 => .fldlg2 p
    | 5#3 => .fldln2 p
    | 6#3 => .fldz p
    | 7#3 => .reservedD9EF p
  | 1#3, 6#3 =>
    match rm with
    | 0#3 => .f2xm1 p
    | 1#3 => .fyl2x p
    | 2#3 => .fptan p
    | 3#3 => .fpatan p
    | 4#3 => .fxtract p
    | 5#3 => .fprem1 p
    | 6#3 => .fdecstp p
    | 7#3 => .fincstp p
  | 1#3, 7#3 =>
    match rm with
    | 0#3 => .fprem p
    | 1#3 => .fyl2xp1 p
    | 2#3 => .fsqrt p
    | 3#3 => .fsincos p
    | 4#3 => .frndint p
    | 5#3 => .fscale p
    | 6#3 => .fsin p
    | 7#3 => .fcos p
  | 2#3, 0#3 => .fcmovb p rm
  | 2#3, 1#3 => .fcmove p rm
  | 2#3, 2#3 => .fcmovbe p rm
  | 2#3, 3#3 => .fcmovu p rm
  | 2#3, 4#3 => .reservedDAE0 p rm
  | 2#3, 5#3 =>
    match rm with
    | 0#3 => .reservedDAE8 p
    | 1#3 => .fucompp p
    | 2#3 => .reservedDAEA p 0#1
    | 3#3 => .reservedDAEA p 1#1
    | 4#3 => .reservedDAEC p 0#2
    | 5#3 => .reservedDAEC p 1#2
    | 6#3 => .reservedDAEC p 2#2
    | 7#3 => .reservedDAEC p 3#2
  | 2#3, 6#3 => .reservedDAF0 p (0#1 ++ rm)
  | 2#3, 7#3 => .reservedDAF0 p (1#1 ++ rm)
  | 3#3, 0#3 => .fcmovnb p rm
  | 3#3, 1#3 => .fcmovne p rm
  | 3#3, 2#3 => .fcmovnbe p rm
  | 3#3, 3#3 => .fcmovnu p rm
  | 3#3, 4#3 =>
    match rm with
    | 0#3 => .feni p
    | 1#3 => .fdisi p
    | 2#3 => .fnclex p
    | 3#3 => .fninit p
    | 4#3 => .fsetpm p
    | 5#3 => .reservedDBE5 p
    | 6#3 => .reservedDBE6 p 0#1
    | 7#3 => .reservedDBE6 p 1#1
  | 3#3, 5#3 => .fucomi p rm
  | 3#3, 6#3 => .fcomi p rm
  | 3#3, 7#3 => .reservedDBF8 p rm
  | 4#3, 0#3 => .faddStiSt0 p rm
  | 4#3, 1#3 => .fmulStiSt0 p rm
  | 4#3, 2#3 => .reservedDCD0 p (0#1 ++ rm)
  | 4#3, 3#3 => .reservedDCD0 p (1#1 ++ rm)
  | 4#3, 4#3 => .fsubrStiSt0 p rm
  | 4#3, 5#3 => .fsubStiSt0 p rm
  | 4#3, 6#3 => .fdivrStiSt0 p rm
  | 4#3, 7#3 => .fdivStiSt0 p rm
  | 5#3, 0#3 => .ffree p rm
  | 5#3, 1#3 => .reservedDDC8 p rm
  | 5#3, 2#3 => .fstSti p rm
  | 5#3, 3#3 => .fstpSti p rm
  | 5#3, 4#3 => .fucom p rm
  | 5#3, 5#3 => .fucomp p rm
  | 5#3, 6#3 => .reservedDDF0 p (0#1 ++ rm)
  | 5#3, 7#3 => .reservedDDF0 p (1#1 ++ rm)
  | 6#3, 0#3 => .faddp p rm
  | 6#3, 1#3 => .fmulp p rm
  | 6#3, 2#3 => .reservedDED0 p rm
  | 6#3, 3#3 =>
    match rm with
    | 0#3 => .reservedDED8 p
    | 1#3 => .fcompp p
    | 2#3 => .reservedDEDA p 0#1
    | 3#3 => .reservedDEDA p 1#1
    | 4#3 => .reservedDEDC p 0#2
    | 5#3 => .reservedDEDC p 1#2
    | 6#3 => .reservedDEDC p 2#2
    | 7#3 => .reservedDEDC p 3#2
  | 6#3, 4#3 => .fsubrp p rm
  | 6#3, 5#3 => .fsubp p rm
  | 6#3, 6#3 => .fdivrp p rm
  | 6#3, 7#3 => .fdivp p rm
  | 7#3, 0#3 => .reservedDFC0 p (0#2 ++ rm)
  | 7#3, 1#3 => .reservedDFC0 p (1#2 ++ rm)
  | 7#3, 2#3 => .reservedDFC0 p (2#2 ++ rm)
  | 7#3, 3#3 => .reservedDFC0 p (3#2 ++ rm)
  | 7#3, 4#3 =>
    match rm with
    | 0#3 => .fnstswAx p
    | 1#3 => .reservedDFE1 p
    | 2#3 => .reservedDFE2 p 0#1
    | 3#3 => .reservedDFE2 p 1#1
    | 4#3 => .reservedDFE4 p 0#2
    | 5#3 => .reservedDFE4 p 1#2
    | 6#3 => .reservedDFE4 p 2#2
    | 7#3 => .reservedDFE4 p 3#2
  | 7#3, 5#3 => .fucomip p rm
  | 7#3, 6#3 => .fcomip p rm
  | 7#3, 7#3 => .reservedDFF8 p rm

/-- The waiting form of a non-waiting control instruction (R107, R121). -/
def Instr.waitingForm : Instr → Option Instr
  | .fninit p => some (.finit p)
  | .fnclex p => some (.fclex p)
  | .fnstcw p m => some (.fstcw p m)
  | .fnstswM16 p m => some (.fstswM16 p m)
  | .fnstswAx p => some (.fstswAx p)
  | .fnstenv p m => some (.fstenv p m)
  | .fnsave p m => some (.fsave p m)
  | _ => none


/-! ### The decoder -/

/-- R123 for an ESC instruction: the instruction and the bytes after it.

DESIGN CHOICE, unsafe (log entry 55): LOCK is decided at the ESC byte, before the second byte is read, so LOCK before a
reserved encoding, or before FCMOVcc or the FCOMI family on a processor without them, is the invalid-opcode exception of
R106 and not the refusal of R116. -/
def decodeEsc (code32 : Bool) (bs : List Byte) : Except DecodeError (Instr × List Byte) :=
  let p := (takePrefixes bs).1
  match (takePrefixes bs).2 with
  | [] => .error .truncated
  | b1 :: r1 =>
    if b1.extractLsb' 3 5 ≠ 0b11011#5 then .error (.notFpu b1)
    else if p.contains .lock then .error .lockPrefix
    else if p.contains .repne || p.contains .rep then .error .repPrefix
    else
      match r1 with
      | [] => .error .truncated
      | b2 :: r2 =>
        let lo := b1.extractLsb' 0 3
        let mod := b2.extractLsb' 6 2
        let reg := b2.extractLsb' 3 3
        let rm := b2.extractLsb' 0 3
        if mod = 3#2 then
          if p.length + 2 ≤ 15 then .ok (regInstr lo reg rm p, r2) else .error .tooLong
        else
          match takeMem (addr32 code32 p) mod rm r2 with
          | none => .error .truncated
          | some (m, r3) =>
            if p.length + 2 + m.size ≤ 15 then .ok (memInstr lo reg p m, r3) else .error .tooLong

/-- 9BH directly before a non-waiting control instruction is the waiting form of that instruction (R107, R121);
anything else leaves 9BH as WAIT. -/
def decodeFused (code32 : Bool) (bs : List Byte) : Option (Instr × List Byte) :=
  match decodeEsc code32 bs with
  | .ok (i, r) => i.waitingForm.map fun j => (j, r)
  | .error _ => none

/-- R123: the instruction at the head of `bs` and the bytes after it. -/
def decode (code32 : Bool) (bs : List Byte) : Except DecodeError (Instr × List Byte) :=
  let p := (takePrefixes bs).1
  match (takePrefixes bs).2 with
  | [] => .error .truncated
  | b1 :: r1 =>
    if b1 = 0x9B#8 then
      if p.contains .lock then .error .lockPrefix
      else if p.contains .repne || p.contains .rep then .error .repPrefix
      else if p.length + 1 ≤ 15 then
        match (if p = [] then decodeFused code32 r1 else none) with
        | some x => .ok x
        | none => .ok (.wait p, r1)
      else .error .tooLong
    else decodeEsc code32 bs

/-! ### The encoder -/

/-- The byte of a prefix (R106). -/
def Prefix.byte : Prefix → Byte
  | .es => 0x26
  | .cs => 0x2E
  | .ss => 0x36
  | .ds => 0x3E
  | .fs => 0x64
  | .gs => 0x65
  | .addrSize => 0x67
  | .opSize => 0x66
  | .lock => 0xF0
  | .repne => 0xF2
  | .rep => 0xF3

/-- The number of a general register. -/
def Reg.code : Reg → BitVec 3
  | .eax => 0
  | .ecx => 1
  | .edx => 2
  | .ebx => 3
  | .esp => 4
  | .ebp => 5
  | .esi => 6
  | .edi => 7

/-- The index field of a SIB byte (R104). -/
def indexCode : Option Reg → BitVec 3
  | none => 4
  | some r => r.code

/-- The rm field of a 16-bit register sum (R105). -/
def Base16.code : Base16 → BitVec 3
  | .bxsi => 0
  | .bxdi => 1
  | .bpsi => 2
  | .bpdi => 3
  | .si => 4
  | .di => 5
  | .bp => 6
  | .bx => 7

/-- The little-endian bytes of a 16-bit value (R72). -/
def bytes16 (d : BitVec 16) : List Byte := [d.extractLsb' 0 8, d.extractLsb' 8 8]

/-- The little-endian bytes of a 32-bit value (R72). -/
def bytes32 (d : BitVec 32) : List Byte :=
  [d.extractLsb' 0 8, d.extractLsb' 8 8, d.extractLsb' 16 8, d.extractLsb' 24 8]

/-- The mod field of a displacement. -/
def Disp32.mod : Disp32 → BitVec 2
  | .none => 0
  | .d8 _ => 1
  | .d32 _ => 2

/-- The bytes of a displacement. -/
def Disp32.bytes : Disp32 → List Byte
  | .none => []
  | .d8 d => [d]
  | .d32 d => bytes32 d

/-- The mod field of a displacement. -/
def Disp16.mod : Disp16 → BitVec 2
  | .none => 0
  | .d8 _ => 1
  | .d16 _ => 2

/-- The bytes of a displacement. -/
def Disp16.bytes : Disp16 → List Byte
  | .none => []
  | .d8 d => [d]
  | .d16 d => bytes16 d

/-- The mod field of the second opcode byte (R103, R105). -/
def MemForm.mod : MemForm → BitVec 2
  | .base _ d => d.mod
  | .abs _ => 0
  | .sib _ _ _ d => d.mod
  | .sibAbs _ _ _ => 0
  | .base16 _ d => d.mod
  | .abs16 _ => 0

/-- The rm field of the second opcode byte (R103, R105). -/
def MemForm.rm : MemForm → BitVec 3
  | .base r _ => r.code
  | .abs _ => 5
  | .sib _ _ _ _ => 4
  | .sibAbs _ _ _ => 4
  | .base16 b _ => b.code
  | .abs16 _ => 6

/-- The bytes after the second opcode byte (R103 to R105). -/
def MemForm.tail : MemForm → List Byte
  | .base _ d => d.bytes
  | .abs d => bytes32 d
  | .sib s x b d => (s ++ indexCode x ++ b.code : BitVec 8) :: d.bytes
  | .sibAbs s x d => (s ++ indexCode x ++ 5#3 : BitVec 8) :: bytes32 d
  | .base16 _ d => d.bytes
  | .abs16 d => bytes16 d

/-- How the bytes of an instruction are laid out: WAIT, a memory form or a register form, the last two with 9BH before
them (`fw`) or not. -/
inductive Shape where
  | wait (p : List Prefix)
  | mem (fw : Bool) (p : List Prefix) (lo reg : BitVec 3) (m : MemForm)
  | reg (fw : Bool) (p : List Prefix) (lo hi rm : BitVec 3)
deriving DecidableEq, Repr

/-- The layout of each instruction, from the same rows R107 to R116. -/
def Instr.shape : Instr → Shape
  | .faddM32 p m => .mem false p 0#3 0#3 m
  | .fmulM32 p m => .mem false p 0#3 1#3 m
  | .fcomM32 p m => .mem false p 0#3 2#3 m
  | .fcompM32 p m => .mem false p 0#3 3#3 m
  | .fsubM32 p m => .mem false p 0#3 4#3 m
  | .fsubrM32 p m => .mem false p 0#3 5#3 m
  | .fdivM32 p m => .mem false p 0#3 6#3 m
  | .fdivrM32 p m => .mem false p 0#3 7#3 m
  | .faddSt0Sti p i => .reg false p 0#3 0#3 i
  | .fmulSt0Sti p i => .reg false p 0#3 1#3 i
  | .fcomSti p i => .reg false p 0#3 2#3 i
  | .fcompSti p i => .reg false p 0#3 3#3 i
  | .fsubSt0Sti p i => .reg false p 0#3 4#3 i
  | .fsubrSt0Sti p i => .reg false p 0#3 5#3 i
  | .fdivSt0Sti p i => .reg false p 0#3 6#3 i
  | .fdivrSt0Sti p i => .reg false p 0#3 7#3 i
  | .fldM32 p m => .mem false p 1#3 0#3 m
  | .reservedD9m1 p m => .mem false p 1#3 1#3 m
  | .fstM32 p m => .mem false p 1#3 2#3 m
  | .fstpM32 p m => .mem false p 1#3 3#3 m
  | .fldenv p m => .mem false p 1#3 4#3 m
  | .fldcw p m => .mem false p 1#3 5#3 m
  | .fnstenv p m => .mem false p 1#3 6#3 m
  | .fnstcw p m => .mem false p 1#3 7#3 m
  | .fldSti p i => .reg false p 1#3 0#3 i
  | .fxch p i => .reg false p 1#3 1#3 i
  | .fnop p => .reg false p 1#3 2#3 0#3
  | .reservedD9D1 p => .reg false p 1#3 2#3 1#3
  | .reservedD9D2 p low => .reg false p 1#3 2#3 (1#2 ++ low)
  | .reservedD9D4 p low => .reg false p 1#3 2#3 (1#1 ++ low)
  | .reservedD9D8 p low => .reg false p 1#3 3#3 low
  | .fchs p => .reg false p 1#3 4#3 0#3
  | .fabs p => .reg false p 1#3 4#3 1#3
  | .reservedD9E2 p low => .reg false p 1#3 4#3 (1#2 ++ low)
  | .ftst p => .reg false p 1#3 4#3 4#3
  | .fxam p => .reg false p 1#3 4#3 5#3
  | .reservedD9E6 p low => .reg false p 1#3 4#3 (3#2 ++ low)
  | .fld1 p => .reg false p 1#3 5#3 0#3
  | .fldl2t p => .reg false p 1#3 5#3 1#3
  | .fldl2e p => .reg false p 1#3 5#3 2#3
  | .fldpi p => .reg false p 1#3 5#3 3#3
  | .fldlg2 p => .reg false p 1#3 5#3 4#3
  | .fldln2 p => .reg false p 1#3 5#3 5#3
  | .fldz p => .reg false p 1#3 5#3 6#3
  | .reservedD9EF p => .reg false p 1#3 5#3 7#3
  | .f2xm1 p => .reg false p 1#3 6#3 0#3
  | .fyl2x p => .reg false p 1#3 6#3 1#3
  | .fptan p => .reg false p 1#3 6#3 2#3
  | .fpatan p => .reg false p 1#3 6#3 3#3
  | .fxtract p => .reg false p 1#3 6#3 4#3
  | .fprem1 p => .reg false p 1#3 6#3 5#3
  | .fdecstp p => .reg false p 1#3 6#3 6#3
  | .fincstp p => .reg false p 1#3 6#3 7#3
  | .fprem p => .reg false p 1#3 7#3 0#3
  | .fyl2xp1 p => .reg false p 1#3 7#3 1#3
  | .fsqrt p => .reg false p 1#3 7#3 2#3
  | .fsincos p => .reg false p 1#3 7#3 3#3
  | .frndint p => .reg false p 1#3 7#3 4#3
  | .fscale p => .reg false p 1#3 7#3 5#3
  | .fsin p => .reg false p 1#3 7#3 6#3
  | .fcos p => .reg false p 1#3 7#3 7#3
  | .fiaddM32i p m => .mem false p 2#3 0#3 m
  | .fimulM32i p m => .mem false p 2#3 1#3 m
  | .ficomM32i p m => .mem false p 2#3 2#3 m
  | .ficompM32i p m => .mem false p 2#3 3#3 m
  | .fisubM32i p m => .mem false p 2#3 4#3 m
  | .fisubrM32i p m => .mem false p 2#3 5#3 m
  | .fidivM32i p m => .mem false p 2#3 6#3 m
  | .fidivrM32i p m => .mem false p 2#3 7#3 m
  | .fcmovb p i => .reg false p 2#3 0#3 i
  | .fcmove p i => .reg false p 2#3 1#3 i
  | .fcmovbe p i => .reg false p 2#3 2#3 i
  | .fcmovu p i => .reg false p 2#3 3#3 i
  | .reservedDAE0 p low => .reg false p 2#3 4#3 low
  | .reservedDAE8 p => .reg false p 2#3 5#3 0#3
  | .fucompp p => .reg false p 2#3 5#3 1#3
  | .reservedDAEA p low => .reg false p 2#3 5#3 (1#2 ++ low)
  | .reservedDAEC p low => .reg false p 2#3 5#3 (1#1 ++ low)
  | .reservedDAF0 p low => .reg false p 2#3 (3#2 ++ low.extractLsb' 3 1) (low.extractLsb' 0 3)
  | .fildM32i p m => .mem false p 3#3 0#3 m
  | .reservedDBm1 p m => .mem false p 3#3 1#3 m
  | .fistM32i p m => .mem false p 3#3 2#3 m
  | .fistpM32i p m => .mem false p 3#3 3#3 m
  | .reservedDBm4 p m => .mem false p 3#3 4#3 m
  | .fldM80 p m => .mem false p 3#3 5#3 m
  | .reservedDBm6 p m => .mem false p 3#3 6#3 m
  | .fstpM80 p m => .mem false p 3#3 7#3 m
  | .fcmovnb p i => .reg false p 3#3 0#3 i
  | .fcmovne p i => .reg false p 3#3 1#3 i
  | .fcmovnbe p i => .reg false p 3#3 2#3 i
  | .fcmovnu p i => .reg false p 3#3 3#3 i
  | .feni p => .reg false p 3#3 4#3 0#3
  | .fdisi p => .reg false p 3#3 4#3 1#3
  | .fnclex p => .reg false p 3#3 4#3 2#3
  | .fninit p => .reg false p 3#3 4#3 3#3
  | .fsetpm p => .reg false p 3#3 4#3 4#3
  | .reservedDBE5 p => .reg false p 3#3 4#3 5#3
  | .reservedDBE6 p low => .reg false p 3#3 4#3 (3#2 ++ low)
  | .fucomi p i => .reg false p 3#3 5#3 i
  | .fcomi p i => .reg false p 3#3 6#3 i
  | .reservedDBF8 p low => .reg false p 3#3 7#3 low
  | .faddM64 p m => .mem false p 4#3 0#3 m
  | .fmulM64 p m => .mem false p 4#3 1#3 m
  | .fcomM64 p m => .mem false p 4#3 2#3 m
  | .fcompM64 p m => .mem false p 4#3 3#3 m
  | .fsubM64 p m => .mem false p 4#3 4#3 m
  | .fsubrM64 p m => .mem false p 4#3 5#3 m
  | .fdivM64 p m => .mem false p 4#3 6#3 m
  | .fdivrM64 p m => .mem false p 4#3 7#3 m
  | .faddStiSt0 p i => .reg false p 4#3 0#3 i
  | .fmulStiSt0 p i => .reg false p 4#3 1#3 i
  | .reservedDCD0 p low => .reg false p 4#3 (1#2 ++ low.extractLsb' 3 1) (low.extractLsb' 0 3)
  | .fsubrStiSt0 p i => .reg false p 4#3 4#3 i
  | .fsubStiSt0 p i => .reg false p 4#3 5#3 i
  | .fdivrStiSt0 p i => .reg false p 4#3 6#3 i
  | .fdivStiSt0 p i => .reg false p 4#3 7#3 i
  | .fldM64 p m => .mem false p 5#3 0#3 m
  | .reservedDDm1 p m => .mem false p 5#3 1#3 m
  | .fstM64 p m => .mem false p 5#3 2#3 m
  | .fstpM64 p m => .mem false p 5#3 3#3 m
  | .frstor p m => .mem false p 5#3 4#3 m
  | .reservedDDm5 p m => .mem false p 5#3 5#3 m
  | .fnsave p m => .mem false p 5#3 6#3 m
  | .fnstswM16 p m => .mem false p 5#3 7#3 m
  | .ffree p i => .reg false p 5#3 0#3 i
  | .reservedDDC8 p low => .reg false p 5#3 1#3 low
  | .fstSti p i => .reg false p 5#3 2#3 i
  | .fstpSti p i => .reg false p 5#3 3#3 i
  | .fucom p i => .reg false p 5#3 4#3 i
  | .fucomp p i => .reg false p 5#3 5#3 i
  | .reservedDDF0 p low => .reg false p 5#3 (3#2 ++ low.extractLsb' 3 1) (low.extractLsb' 0 3)
  | .fiaddM16i p m => .mem false p 6#3 0#3 m
  | .fimulM16i p m => .mem false p 6#3 1#3 m
  | .ficomM16i p m => .mem false p 6#3 2#3 m
  | .ficompM16i p m => .mem false p 6#3 3#3 m
  | .fisubM16i p m => .mem false p 6#3 4#3 m
  | .fisubrM16i p m => .mem false p 6#3 5#3 m
  | .fidivM16i p m => .mem false p 6#3 6#3 m
  | .fidivrM16i p m => .mem false p 6#3 7#3 m
  | .faddp p i => .reg false p 6#3 0#3 i
  | .fmulp p i => .reg false p 6#3 1#3 i
  | .reservedDED0 p low => .reg false p 6#3 2#3 low
  | .reservedDED8 p => .reg false p 6#3 3#3 0#3
  | .fcompp p => .reg false p 6#3 3#3 1#3
  | .reservedDEDA p low => .reg false p 6#3 3#3 (1#2 ++ low)
  | .reservedDEDC p low => .reg false p 6#3 3#3 (1#1 ++ low)
  | .fsubrp p i => .reg false p 6#3 4#3 i
  | .fsubp p i => .reg false p 6#3 5#3 i
  | .fdivrp p i => .reg false p 6#3 6#3 i
  | .fdivp p i => .reg false p 6#3 7#3 i
  | .fildM16i p m => .mem false p 7#3 0#3 m
  | .reservedDFm1 p m => .mem false p 7#3 1#3 m
  | .fistM16i p m => .mem false p 7#3 2#3 m
  | .fistpM16i p m => .mem false p 7#3 3#3 m
  | .fbld p m => .mem false p 7#3 4#3 m
  | .fildM64i p m => .mem false p 7#3 5#3 m
  | .fbstp p m => .mem false p 7#3 6#3 m
  | .fistpM64i p m => .mem false p 7#3 7#3 m
  | .reservedDFC0 p low => .reg false p 7#3 (0#1 ++ low.extractLsb' 3 2) (low.extractLsb' 0 3)
  | .fnstswAx p => .reg false p 7#3 4#3 0#3
  | .reservedDFE1 p => .reg false p 7#3 4#3 1#3
  | .reservedDFE2 p low => .reg false p 7#3 4#3 (1#2 ++ low)
  | .reservedDFE4 p low => .reg false p 7#3 4#3 (1#1 ++ low)
  | .fucomip p i => .reg false p 7#3 5#3 i
  | .fcomip p i => .reg false p 7#3 6#3 i
  | .reservedDFF8 p low => .reg false p 7#3 7#3 low
  | .wait p => .wait p
  | .finit p => .reg true p 3#3 4#3 3#3
  | .fclex p => .reg true p 3#3 4#3 2#3
  | .fstcw p m => .mem true p 1#3 7#3 m
  | .fstswM16 p m => .mem true p 5#3 7#3 m
  | .fstswAx p => .reg true p 7#3 4#3 0#3
  | .fstenv p m => .mem true p 1#3 6#3 m
  | .fsave p m => .mem true p 5#3 6#3 m

/-- The first opcode byte of an ESC instruction (R100). -/
def opcode1 (lo : BitVec 3) : Byte := 0b11011#5 ++ lo

/-- The second opcode byte (R101). -/
def opcode2 (mod : BitVec 2) (reg rm : BitVec 3) : Byte := mod ++ reg ++ rm

/-- The bytes of a layout (R101, R107). -/
def Shape.bytes : Shape → List Byte
  | .wait p => p.map Prefix.byte ++ [0x9B#8]
  | .mem fw p lo r m =>
    (if fw then [0x9B#8] else []) ++ p.map Prefix.byte ++ opcode1 lo :: opcode2 m.mod r m.rm :: m.tail
  | .reg fw p lo hi rm =>
    (if fw then [0x9B#8] else []) ++ p.map Prefix.byte ++ [opcode1 lo, opcode2 3 hi rm]

/-- The bytes of an instruction, the first at the lowest address. -/
def encode (i : Instr) : List Byte := i.shape.bytes

/-- The length the host's instruction pointer advances by (R52, R119). -/
def Instr.length (i : Instr) : Nat := (encode i).length

/-- What FOP records of an instruction: the low three bits of the first opcode byte and the second byte (R48, R122). -/
def Instr.fop (i : Instr) : BitVec 11 :=
  match i.shape with
  | .wait _ => 0
  | .mem _ _ lo reg m => lo ++ opcode2 m.mod reg m.rm
  | .reg _ _ lo hi rm => lo ++ opcode2 3 hi rm

/-! ### The opcode table's numbering -/

/-- The bytes of a number of `n` bytes, most significant first: how spec/opcode_table.json numbers a row (R123,
`(b1 << 8) OR b2`). -/
def bytesBE : Nat → Nat → List Byte
  | 0, _ => []
  | n + 1, w => BitVec.ofNat 8 (w >>> (8 * n)) :: bytesBE n w

/-- A byte that can begin an FPU instruction. -/
def canBegin (b : Byte) : Bool := (prefixOf b).isSome || b == 0x9B#8 || b.extractLsb' 3 5 == 0b11011#5

/-- The instruction bytes of a table word: the bytes above the first that can begin an instruction are padding of a row
narrower than `nbits`. -/
def tableBytes (nbits w : Nat) : List Byte := (bytesBE ((nbits + 7) / 8) w).dropWhile fun b => !canBegin b

/-- The longest instruction: 9BH and 15 bytes. -/
def maxLength : Nat := 16

/-- The instruction the decoder reads from a word of spec/opcode_table.json, in a 32-bit code segment. -/
def decodeTableWord (nbits w : Nat) : Option Instr :=
  match decode true (tableBytes nbits w ++ List.replicate maxLength 0#8) with
  | .ok (i, _) => some i
  | .error _ => none

end Sys2Proof
end

