-- ==== Sys2Proof/Machine/State.lean ====
section
/-! DEFINITION. The state of the machine: the FPU registers of spec/10_state.md, the host items of spec/00_scope.md R8,
memory, the reasons a step can stop, and the state right after reset. -/

namespace Sys2Proof.Machine

/-- A tag of the tag word (R41): 00B, 01B, 10B, 11B. -/
inductive Tag where
  | valid
  | zero
  | special
  | empty
deriving DecidableEq, Repr, Inhabited

/-- The status word: its sixteen bits by name (R27). -/
structure StatusWord where
  ie : Bool
  de : Bool
  ze : Bool
  oe : Bool
  ue : Bool
  pe : Bool
  sf : Bool
  es : Bool
  c0 : Bool
  c1 : Bool
  c2 : Bool
  top : BitVec 3
  c3 : Bool
  b : Bool
deriving DecidableEq, Repr, Inhabited

/-- The eight general registers of the host. -/
structure Gprs where
  eax : Word32
  ecx : Word32
  edx : Word32
  ebx : Word32
  esp : Word32
  ebp : Word32
  esi : Word32
  edi : Word32
deriving DecidableEq, Repr, Inhabited

/-- The segment selectors of the host. -/
structure Segs where
  es : Word16
  cs : Word16
  ss : Word16
  ds : Word16
  fs : Word16
  gs : Word16
deriving DecidableEq, Repr, Inhabited

/-- The EFLAGS bits the FPU touches (R50). -/
structure Eflags where
  zf : Bool
  pf : Bool
  cf : Bool
deriving DecidableEq, Repr, Inhabited

/-- The operating mode of the host (OPERATING_MODE, R7). -/
inductive OperatingMode where
  | protectedMode
  | realAddress
  | virtual8086
  | smm
deriving DecidableEq, Repr, Inhabited

/-- What the last step handed to the host. -/
inductive HostEvent where
  /-- Nothing: the instruction executed. -/
  | none
  /-- `raise #MF`: vector 16, with the address of the waiting instruction (R417). -/
  | mf (returnAddress : FarPtr)
  /-- `freeze`: the processor waits for the external interrupt (R418). -/
  | frozen
  /-- The host's invalid-opcode exception, with the address of the instruction (R106). -/
  | invalidOpcode (returnAddress : FarPtr)
deriving DecidableEq, Repr, Inhabited

/-- The state: everything spec/ gives the machine, and `draws`, the model's own. -/
structure State where
  /-- R[0] to R[7] (R21). -/
  regs : Vector Ext 8
  /-- The tag word as its eight tags, `tags[k]` being TW[2k+1:2k] (R41). -/
  tags : Vector Tag 8
  /-- SW (R26, R27). -/
  sw : StatusWord
  /-- CW (R36). -/
  cw : Word16
  /-- FIP (R44). -/
  fip : FarPtr
  /-- FDP (R45). -/
  fdp : FarPtr
  /-- FOP (R48). -/
  fop : BitVec 11
  /-- The general registers of the host (R49, R103). -/
  gprs : Gprs
  /-- The segment selectors of the host (R44, R106). -/
  segs : Segs
  /-- The host's instruction pointer offset (R52). -/
  eip : Word32
  /-- ZF, PF and CF (R50). -/
  eflags : Eflags
  /-- CR0.NE (R51). -/
  ne : Bool
  /-- The operating mode (R7, R366). -/
  mode : OperatingMode
  /-- The code segment's default size is 32 bits (R103, R366). -/
  code32 : Bool
  /-- The IGNNE# input is asserted (R419). -/
  ignne : Bool
  /-- The FERR# output is asserted (R418). -/
  ferr : Bool
  /-- What the last step handed to the host (R417, R418). -/
  event : HostEvent
  /-- Memory: the cells that do not read 00H, by rising address (R70, R77). -/
  mem : List Host.Cell
  /-- The implementation parameters (R7). -/
  params : Params
  /-- How many instructions have drawn undefined values: the argument of the free values of Config (R10). -/
  draws : Nat
deriving DecidableEq, Repr

/-- The stops that are faults. -/
inductive Fault where
  /-- A memory operand or image runs past the end of the 32-bit offset space (U13): raised by every form with a memory
  operand. Safe: the spec gives no effect there. -/
  | operandPastEnd
  /-- The bytes of an instruction run past the end of the 32-bit offset space: raised by the fetch. Safe: the spec gives
  no wrap-around (R52). -/
  | fetchPastEnd
deriving DecidableEq, Repr

/-- The stops that are refusals. -/
inductive Refusal where
  /-- An instruction without a meaning in this model: raised by its arm of the dispatch. Safe. -/
  | notModelled (mnemonic : String)
  /-- An encoding that names no instruction (U12, R116): raised by the reserved encodings, and by FCMOVcc and the FCOMI
  family where the processor has none. Safe. -/
  | reservedEncoding
  /-- A result that depends on precision control while PC = 01B (U3): raised by the instructions of R155. Safe. -/
  | precisionReserved
  /-- Bytes that are no FPU instruction of this spec (R123, R106): raised by the fetch. Safe. -/
  | undecodable (e : DecodeError)
  /-- The host has control, after #MF or the invalid-opcode exception (R417, R420): raised by the step. Safe. -/
  | hostHasControl
deriving DecidableEq, Repr

/-- XP1_DOMAIN as documented: `-(1 - sqrt(2)/2) <= x <= 1 - sqrt(2)/2` (R328, PRESUMED). -/
def documentedXp1High : Ext := 0x3FFD95F619980C4336F7#80

/-- The parameters R7 takes. -/
def Params.taken : Params where
  generation := .pentiumPro
  hasFcmov := true
  pcAppliesToIntegerForms := true
  fcomiSignalsD := false
  xp1Low := 0xBFFD95F619980C4336F7#80
  xp1High := documentedXp1High

/-- The machine right after reset: the FPU as in column (b) of R55, the host as log entry 3 says. -/
def State.reset : State where
  regs := Vector.replicate 8 0#80
  tags := Vector.replicate 8 .zero
  sw := { ie := false, de := false, ze := false, oe := false, ue := false, pe := false, sf := false, es := false,
          c0 := false, c1 := false, c2 := false, top := 0#3, c3 := false, b := false }
  cw := 0x0040#16
  fip := 0#48
  fdp := 0#48
  fop := 0#11
  gprs := { eax := 0#32, ecx := 0#32, edx := 0#32, ebx := 0#32, esp := 0#32, ebp := 0#32, esi := 0#32, edi := 0#32 }
  segs := { es := 0#16, cs := 0x001B#16, ss := 0#16, ds := 0x0023#16, fs := 0#16, gs := 0#16 }
  eip := 0x00400000#32
  eflags := { zf := false, pf := false, cf := false }
  ne := false
  mode := .protectedMode
  code32 := true
  ignne := false
  ferr := false
  event := .none
  mem := []
  params := Params.taken
  draws := 0

end Sys2Proof.Machine
end

