-- ==== Sys2Proof/Machine/Flags.lean ====
section
/-! DEFINITION. The fields of the status and control words, the condition codes, and Signal (spec/10_state.md R26 to
R40, spec/60_exceptions.md R405). -/

namespace Sys2Proof.Machine

/-! ### The status word as a word (R27) -/

/-- The 16 bits of the status word. -/
def StatusWord.toBits (w : StatusWord) : Word16 :=
  BitVec.ofBool w.b ++ BitVec.ofBool w.c3 ++ w.top ++ BitVec.ofBool w.c2 ++ BitVec.ofBool w.c1 ++ BitVec.ofBool w.c0 ++
    BitVec.ofBool w.es ++ BitVec.ofBool w.sf ++ BitVec.ofBool w.pe ++ BitVec.ofBool w.ue ++ BitVec.ofBool w.oe ++
    BitVec.ofBool w.ze ++ BitVec.ofBool w.de ++ BitVec.ofBool w.ie

/-- The status word of 16 bits. -/
def StatusWord.ofBits (v : Word16) : StatusWord where
  ie := v.getLsbD 0
  de := v.getLsbD 1
  ze := v.getLsbD 2
  oe := v.getLsbD 3
  ue := v.getLsbD 4
  pe := v.getLsbD 5
  sf := v.getLsbD 6
  es := v.getLsbD 7
  c0 := v.getLsbD 8
  c1 := v.getLsbD 9
  c2 := v.getLsbD 10
  top := v.extractLsb' 11 3
  c3 := v.getLsbD 14
  b := v.getLsbD 15

/-! ### The control word (R36 to R40) -/

/-- The rounding control field (R39). -/
def rcOf (cw : Word16) : RoundMode :=
  match cw.extractLsb' 10 2 with
  | 0#2 => .nearest
  | 1#2 => .down
  | 2#2 => .up
  | 3#2 => .zero

/-- PrecOf of R155; none for the reserved field 01B (U3). -/
def precOf (cw : Word16) : Option Nat :=
  match cw.extractLsb' 8 2 with
  | 0#2 => some 24
  | 1#2 => none
  | 2#2 => some 53
  | 3#2 => some 64

/-- The control word after FNINIT (R55). -/
def cwInit : Word16 := 0x037F#16

/-- What a store of the control word shows: bits 6, 7 and 15:13 are undefined unless it holds 037FH (R40, D11). -/
def cwImage (cw : Word16) (draws : Nat) : Word16 :=
  if cw = cwInit then cw else (cw &&& 0x1F3F#16) ||| (Config.freeCw draws &&& 0xE0C0#16)

/-! ### Exception conditions (R400, R401) -/

/-- The conditions of R405. -/
inductive Cond where
  | isUnder
  | isOver
  | ia
  | d
  | z
  | o
  | u
  | p
deriving DecidableEq, Repr

/-- The mask bit of a condition (R401). -/
def Cond.maskBit : Cond → Nat
  | .isUnder => 0
  | .isOver => 0
  | .ia => 0
  | .d => 1
  | .z => 2
  | .o => 3
  | .u => 4
  | .p => 5

/-- The condition is masked (R37). -/
def State.masked (s : State) (c : Cond) : Bool := s.cw.getLsbD c.maskBit

/-- The flags a condition sets (R405). -/
def StatusWord.setFlag (w : StatusWord) : Cond → StatusWord
  | .isUnder => { w with ie := true, sf := true, c1 := false }
  | .isOver => { w with ie := true, sf := true, c1 := true }
  | .ia => { w with ie := true }
  | .d => { w with de := true }
  | .z => { w with ze := true }
  | .o => { w with oe := true }
  | .u => { w with ue := true }
  | .p => { w with pe := true }

/-- The value of ES: some flag is set whose mask is 0 (R33). -/
def summary (w : StatusWord) (cw : Word16) : Bool :=
  (w.ie && !cw.getLsbD 0) || (w.de && !cw.getLsbD 1) || (w.ze && !cw.getLsbD 2) || (w.oe && !cw.getLsbD 3) ||
    (w.ue && !cw.getLsbD 4) || (w.pe && !cw.getLsbD 5)

/-! ### The parts of State these rules write -/

/-- The state with another status word. -/
def State.withSw (s : State) (w : StatusWord) : State := { s with sw := w }

/-- The state with another control word. -/
def State.withCw (s : State) (w : Word16) : State := { s with cw := w }

/-- The state with another level of FERR#. -/
def State.withFerr (s : State) (b : Bool) : State := { s with ferr := b }

/-- The level of FERR# once an exception is pending (R405, R418): asserted at the detecting instruction where the
processor does so at once (FERR_TIMING, U25). -/
def State.ferrPending (s : State) : Bool := s.ferr || (!s.ne && !s.ignne && Config.ferrAtOnce s.draws)

/-- ES and B become 1 (R33, R34). -/
def State.raiseEs (s : State) : State := (s.withSw { s.sw with es := true, b := true }).withFerr s.ferrPending

/-- Signal of R405; whether the condition is masked is `State.masked`. -/
def State.signal (s : State) (c : Cond) : State :=
  if s.masked c then s.withSw (s.sw.setFlag c) else (s.withSw (s.sw.setFlag c)).raiseEs

/-- ES and B recomputed from flags and masks; FERR# is deasserted when ES is 0 (R33, R34, R418, D10). -/
def State.refreshEs (s : State) : State :=
  if summary s.sw s.cw then s.raiseEs
  else (s.withSw { s.sw with es := false, b := false }).withFerr false

/-- A condition and its masked response; unmasked, the instruction stops with nothing else written (R172, R405). -/
def State.respond (s : State) (c : Cond) (f : State → State) : State :=
  if s.masked c then f (s.signal c) else s.signal c

/-! ### Condition codes (R29 to R31) -/

/-- C1 written. -/
def State.setC1 (s : State) (b : Bool) : State := s.withSw { s.sw with c1 := b }

/-- C2 written. -/
def State.setC2 (s : State) (b : Bool) : State := s.withSw { s.sw with c2 := b }

/-- C3, C2 and C0 written. -/
def State.setCodes (s : State) (c3 c2 c0 : Bool) : State := s.withSw { s.sw with c3 := c3, c2 := c2, c0 := c0 }

/-- C0, C2 and C3 undefined (R29, U1). -/
def State.freeCodes (s : State) : State :=
  s.setCodes (Config.freeC3 s.draws) (Config.freeC2 s.draws) (Config.freeC0 s.draws)

/-- C1 undefined (R29, U1). -/
def State.freeC1 (s : State) : State := s.setC1 (Config.freeC1 s.draws)

/-- ZF, PF and CF written (R50). -/
def State.setEflags (s : State) (zf pf cf : Bool) : State := { s with eflags := { zf := zf, pf := pf, cf := cf } }

end Sys2Proof.Machine
end

