-- ==== Sys2Proof/Machine/Formats.lean ====
section
/-! DEFINITION. The data formats of spec/40_formats_numerics.md: fields, classes, values, the NaN rules, and the
conversions into and out of the register format that need no rounding. -/

namespace Sys2Proof.Machine

/-! ### The extended-real format (R134) -/

/-- The sign bit. -/
def signOf (v : Ext) : Bool := v.getLsbD 79

/-- The biased exponent. -/
def expOf (v : Ext) : BitVec 15 := v.extractLsb' 64 15

/-- The significand with its integer bit. -/
def sigOf (v : Ext) : BitVec 64 := v.extractLsb' 0 64

/-- `{s, e, m}` of R9. -/
def mkExt (s : Bool) (e : BitVec 15) (m : BitVec 64) : Ext := BitVec.ofBool s ++ e ++ m

/-- The classes of R145. -/
inductive Class where
  | zero
  | denormal
  | pseudoDenormal
  | normal
  | unnormal
  | infinity
  | snan
  | qnan
  | pseudoInfinity
  | pseudoNan
deriving DecidableEq, Repr

/-- Class(v) of R145. -/
def classOf (v : Ext) : Class :=
  let j := v.getLsbD 63
  let f := v.extractLsb' 0 63
  if expOf v = 0#15 then
    if j then .pseudoDenormal else if f = 0#63 then .zero else .denormal
  else if expOf v = 0x7FFF#15 then
    if j then (if f = 0#63 then .infinity else if f.getLsbD 62 then .qnan else .snan)
    else if f = 0#63 then .pseudoInfinity else .pseudoNan
  else if j then .normal else .unnormal

/-- Unsupported(v) of R145. -/
def isUnsupported (v : Ext) : Bool :=
  match classOf v with
  | .unnormal => true
  | .pseudoInfinity => true
  | .pseudoNan => true
  | .zero => false
  | .denormal => false
  | .pseudoDenormal => false
  | .normal => false
  | .infinity => false
  | .snan => false
  | .qnan => false

/-- The classes that count as a denormal operand (R146, R172 step 4). -/
def isDenormal (v : Ext) : Bool := classOf v == .denormal || classOf v == .pseudoDenormal

/-- A NaN of either kind (R142). -/
def isNan (v : Ext) : Bool := classOf v == .snan || classOf v == .qnan

/-- TagOf(v) of R43. -/
def tagOf (v : Ext) : Tag :=
  match classOf v with
  | .zero => .zero
  | .normal => .valid
  | .denormal => .special
  | .pseudoDenormal => .special
  | .unnormal => .special
  | .infinity => .special
  | .snan => .special
  | .qnan => .special
  | .pseudoInfinity => .special
  | .pseudoNan => .special

/-- Val(v) of R135 for a finite value: exponent 0 stands for the exponent 1 (R146). -/
def valOf (v : Ext) : Num where
  neg := signOf v
  n := (sigOf v).toNat
  k := (max (expOf v).toNat 1 : Nat) - 16446

/-- The real indefinite (R143). -/
def realIndefinite : Ext := 0xFFFFC000000000000000#80

/-- An infinity (R144). -/
def infinity (neg : Bool) : Ext := mkExt neg 0x7FFF#15 0x8000000000000000#64

/-- A zero (R144). -/
def zero (neg : Bool) : Ext := mkExt neg 0#15 0#64

/-- +1.0 (R144). -/
def one : Ext := mkExt false 0x3FFF#15 0x8000000000000000#64

/-! ### NaN results (R164, R165) -/

/-- Quiet(v) of R164. -/
def quiet (v : Ext) : Ext := v ||| (1#80 <<< 62)

/-- NaNResult of two operands at least one of which is a NaN (R165; a tie of significands goes to the sign 0, D8). -/
def nanResult (a b : Ext) : Ext :=
  if isNan a && isNan b then
    if classOf a == .qnan && classOf b == .snan then a
    else if classOf a == .snan && classOf b == .qnan then b
    else if (sigOf b).toNat < (sigOf a).toNat then quiet a
    else if (sigOf a).toNat < (sigOf b).toNat then quiet b
    else if signOf a then quiet b else quiet a
  else if isNan a then quiet a
  else if isNan b then quiet b
  else realIndefinite

/-! ### Numbers -/

/-- `n * 2^d`, or the quotient by `2^(-d)` rounded down. -/
def shiftNat (n : Nat) (d : Int) : Nat := if 0 ≤ d then n <<< d.toNat else n >>> (-d).toNat

/-- The real formats by their limits (R136, R139): significant bits, least and greatest exponent of a normalized number. -/
structure Fmt where
  prec : Nat
  emin : Int
  emax : Int
deriving DecidableEq, Repr

/-- Extended-real. -/
def fmtExt : Fmt := { prec := 64, emin := -16382, emax := 16383 }

/-- Double-real. -/
def fmtDouble : Fmt := { prec := 53, emin := -1022, emax := 1023 }

/-- Single-real. -/
def fmtSingle : Fmt := { prec := 24, emin := -126, emax := 127 }

/-- The encoding of a finite number that the format holds exactly: the biased exponent and the significand with its
integer bit (R135). -/
def encodeFinite (f : Fmt) (n : Nat) (k : Int) : Nat × Nat :=
  let e := (n.log2 : Int) + k
  if n = 0 then (0, 0)
  else if f.emin ≤ e then ((e + f.emax).toNat, shiftNat n ((f.prec : Int) - 1 - n.log2))
  else (0, shiftNat n (k - f.emin + f.prec - 1))

/-- A finite number that the register format holds exactly, normalized where it can be (R163). -/
def extOfNum (x : Num) : Ext :=
  let p := encodeFinite fmtExt x.n x.k
  mkExt x.neg (BitVec.ofNat 15 p.1) (BitVec.ofNat 64 p.2)

/-- IntToExt of R153. -/
def extOfInt (x : Int) : Ext := extOfNum { neg := decide (x < 0), n := x.natAbs, k := 0 }

/-! ### Conversions into the register format (R152 to R154) -/

/-- ToExt of R152 for a single-real. -/
def extOfSingle (p : BitVec 32) : Ext :=
  let s := p.getLsbD 31
  let e := (p.extractLsb' 23 8).toNat
  let f := (p.extractLsb' 0 23).toNat
  if e = 255 then mkExt s 0x7FFF#15 (BitVec.ofNat 64 (2 ^ 63 + f <<< 40))
  else extOfNum { neg := s, n := if e = 0 then f else 2 ^ 23 + f, k := (max e 1 : Nat) - 150 }

/-- ToExt of R152 for a double-real. -/
def extOfDouble (p : BitVec 64) : Ext :=
  let s := p.getLsbD 63
  let e := (p.extractLsb' 52 11).toNat
  let f := (p.extractLsb' 0 52).toNat
  if e = 2047 then mkExt s 0x7FFF#15 (BitVec.ofNat 64 (2 ^ 63 + f <<< 11))
  else extOfNum { neg := s, n := if e = 0 then f else 2 ^ 52 + f, k := (max e 1 : Nat) - 1075 }

/-- A single-real denormal (R140). -/
def isDenormalSingle (p : BitVec 32) : Bool := p.extractLsb' 23 8 == 0#8 && p.extractLsb' 0 23 != 0#23

/-- A double-real denormal (R140). -/
def isDenormalDouble (p : BitVec 64) : Bool := p.extractLsb' 52 11 == 0#11 && p.extractLsb' 0 52 != 0#52

/-- The digits `k - 1` to 0 of a packed decimal, each four bits (R149). -/
def bcdDigits (p : BitVec 80) : Nat → List Nat
  | 0 => []
  | k + 1 => (p.extractLsb' (4 * k) 4).toNat :: bcdDigits p k

/-- The number that digits, most significant first, write in base ten. -/
def decimal (ds : List Nat) : Nat := ds.foldl (fun a d => 10 * a + d) 0

/-- BcdToExt of R154: none where a digit exceeds 9. -/
def extOfBcd (p : BitVec 80) : Option Ext :=
  let ds := bcdDigits p 18
  if ds.all fun d => decide (d ≤ 9) then some (extOfNum { neg := p.getLsbD 79, n := decimal ds, k := 0 }) else none

/-! ### Encodings of the memory formats (R143, R147 to R150, R167 to R170) -/

/-- What a store to a real format writes of an operand: a number, an infinity or a NaN's sign and significand. -/
inductive RealValue where
  | finite (neg : Bool) (n : Nat) (k : Int)
  | infinite (neg : Bool)
  | nan (neg : Bool) (sig : BitVec 64)
deriving DecidableEq, Repr

/-- The single-real encoding; a NaN keeps its top 23 fraction bits (R167). -/
def singleOf : RealValue → BitVec 32
  | .finite s n k =>
    let p := encodeFinite fmtSingle n k
    BitVec.ofBool s ++ BitVec.ofNat 8 p.1 ++ BitVec.ofNat 23 p.2
  | .infinite s => BitVec.ofBool s ++ 0xFF#8 ++ 0#23
  | .nan s m => BitVec.ofBool s ++ 0xFF#8 ++ m.extractLsb' 40 23

/-- The double-real encoding; a NaN keeps its top 52 fraction bits (R167). -/
def doubleOf : RealValue → BitVec 64
  | .finite s n k =>
    let p := encodeFinite fmtDouble n k
    BitVec.ofBool s ++ BitVec.ofNat 11 p.1 ++ BitVec.ofNat 52 p.2
  | .infinite s => BitVec.ofBool s ++ 0x7FF#11 ++ 0#52
  | .nan s m => BitVec.ofBool s ++ 0x7FF#11 ++ m.extractLsb' 11 52

/-- The real indefinite as a value (R143). -/
def RealValue.indefinite : RealValue := .nan true 0xC000000000000000#64

/-- The register encoding of a delivered value. -/
def extOfReal : RealValue → Ext
  | .finite s n k => extOfNum { neg := s, n := n, k := k }
  | .infinite s => infinity s
  | .nan s m => mkExt s 0x7FFF#15 m

/-- The value of a two's complement pattern of `n` bits (R147): 100..00B is the most negative number (R148). -/
def intOf (n : Nat) (p : BitVec n) : Int := p.toInt

/-- The integer indefinite of `n` bits (R148). -/
def intIndefinite (n : Nat) : BitVec n := BitVec.ofNat n (2 ^ (n - 1))

/-- The packed-decimal digits of a number below 10^18, `k` of them from the least significant (R149). -/
def bcdOf : Nat → Nat → Nat
  | 0, _ => 0
  | k + 1, n => n % 10 + 16 * bcdOf k (n / 10)

/-- A packed decimal (R170): sign, seven zero bits, eighteen digits. -/
def packedDecimal (neg : Bool) (n : Nat) : BitVec 80 := BitVec.ofBool neg ++ 0#7 ++ BitVec.ofNat 72 (bcdOf 18 n)

/-- The packed-decimal indefinite (R150), its low eight bytes undefined (U4). -/
def packedIndefinite (low : BitVec 64) : BitVec 80 := 0xFFFF#16 ++ low

end Sys2Proof.Machine
end

