-- ==== Sys2Proof/Machine/Ops.lean ====
section
/-! DEFINITION. The named operations over memory, the register stack, the pointers and the hand-over of exceptions. -/

namespace Sys2Proof.Machine

/-- What a meaning answers. -/
abbrev Result := Host.Outcome State Fault Refusal

/-! ### Memory (spec/20_memory.md R70 to R76) -/

/-- What an address that memory does not list reads as (log entry 1). -/
def unlistedByte : Byte := 0#8

/-- The byte at an address. -/
def memByte : List Host.Cell → Nat → Byte
  | [], _ => unlistedByte
  | (b, v) :: r, a => if b = a then v else memByte r a

/-- The cells with one byte stored, in canonical form. -/
def memSet : List Host.Cell → Nat → Byte → List Host.Cell
  | [], a, v => if v = unlistedByte then [] else [(a, v)]
  | (b, w) :: r, a, v =>
    if a < b then (if v = unlistedByte then (b, w) :: r else (a, v) :: (b, w) :: r)
    else if a = b then (if v = unlistedByte then r else (a, v) :: r)
    else (b, w) :: memSet r a v

/-- The end of the 32-bit offset space. -/
def memEnd : Nat := 2 ^ 32

/-- The cells have rising addresses from `lo` up, within the offset space, and none holds what an unlisted address reads
as. -/
def memWfFrom : Nat → List Host.Cell → Bool
  | _, [] => true
  | lo, (a, v) :: r => decide (lo ≤ a) && decide (a < memEnd) && v != unlistedByte && memWfFrom (a + 1) r

/-- The canonical form of memory. -/
def memWf (m : List Host.Cell) : Bool := memWfFrom 0 m

/-- MemRead of R72: the `n` bytes at `a` as a number, the byte at `a` least significant. -/
def memRead (m : List Host.Cell) (a : Nat) : Nat → Nat
  | 0 => 0
  | n + 1 => (memByte m a).toNat + 256 * memRead m (a + 1) n

/-- MemWrite of R72: the low `n` bytes of `v` at `a`, the least significant at `a`. -/
def memWrite (m : List Host.Cell) (a : Nat) : Nat → Nat → List Host.Cell
  | 0, _ => m
  | n + 1, v => memWrite (memSet m a (BitVec.ofNat 8 v)) (a + 1) n (v / 256)

/-- The byte of memory at an address. -/
def State.byte (s : State) (a : Nat) : Byte := memByte s.mem a

/-- The `n` bytes at `a` of memory. -/
def State.read (s : State) (a n : Nat) : Nat := memRead s.mem a n

/-- The state with `n` bytes stored at `a`. -/
def State.store (s : State) (a n v : Nat) : State := { s with mem := memWrite s.mem a n v }

/-! ### The register stack (spec/10_state.md R23, spec/40_formats_numerics.md R180, R181) -/

/-- The physical register of ST(i) (R23). -/
def State.phys (s : State) (i : StIdx) : StIdx := s.sw.top + i

/-- ST(i). -/
def State.st (s : State) (i : StIdx) : Ext := s.regs.get (s.phys i).toFin

/-- The tag of ST(i). -/
def State.stTag (s : State) (i : StIdx) : Tag := s.tags.get (s.phys i).toFin

/-- ST(i) is empty (R182). -/
def State.stEmpty (s : State) (i : StIdx) : Bool := s.stTag i == .empty

/-- A physical register written, with the tag of its value (R41). -/
def State.writePhys (s : State) (k : StIdx) (v : Ext) : State :=
  { s with regs := s.regs.set k.toFin v, tags := s.tags.set k.toFin (tagOf v) }

/-- A tag written. -/
def State.withTag (s : State) (k : StIdx) (t : Tag) : State := { s with tags := s.tags.set k.toFin t }

/-- `ST(i) <- v` (R10, R41). -/
def State.setSt (s : State) (i : StIdx) (v : Ext) : State := s.writePhys (s.phys i) v

/-- TOP written. -/
def State.withTop (s : State) (t : BitVec 3) : State := s.withSw { s.sw with top := t }

/-- Push of R180. -/
def State.push (s : State) (v : Ext) : State := (s.withTop (s.sw.top - 1#3)).setSt 0#3 v

/-- Pop of R181. -/
def State.pop (s : State) : State := (s.withTag s.sw.top .empty).withTop (s.sw.top + 1#3)

/-- A push would overflow (R183): the register it would occupy is not empty. -/
def State.pushOverflows (s : State) : Bool := !s.stEmpty 7#3

/-! ### The pointers and the host's program counter (R47, R52) -/

/-- The segment selector of a segment register. -/
def Segs.get (g : Segs) : Seg → Word16
  | .es => g.es
  | .cs => g.cs
  | .ss => g.ss
  | .ds => g.ds
  | .fs => g.fs
  | .gs => g.gs

/-- The address of the current instruction, its first prefix included (R44). -/
def State.here (s : State) : FarPtr := s.segs.cs ++ s.eip

/-- FIP, FDP and FOP written. -/
def State.withPointers (s : State) (fip fdp : FarPtr) (fop : BitVec 11) : State :=
  { s with fip := fip, fdp := fdp, fop := fop }

/-- UpdatePointers of R47; without a memory operand FDP is undefined (U2). -/
def State.updatePointers (s : State) (i : Instr) (operand : Option FarPtr) : State :=
  s.withPointers s.here (operand.getD (Config.freeFdp s.draws)) i.fop

/-- The host advances past the instruction (R52, R119), and the next instruction draws its own undefined values. -/
def State.advance (s : State) (n : Nat) : State :=
  { s with eip := s.eip + BitVec.ofNat 32 n, draws := s.draws + 1 }

/-! ### Exceptions handed to the host (spec/60_exceptions.md R415 to R419) -/

/-- The hand-over recorded. -/
def State.withEvent (s : State) (e : HostEvent) : State := { s with event := e }

/-- `raise #MF` (R417): the FPU changes nothing; the return address is the waiting instruction's. -/
def State.raiseMF (s : State) : State := s.withEvent (.mf s.here)

/-- `freeze` (R418): FERR# is asserted and the instruction does not execute. -/
def State.freeze (s : State) : State := (s.withFerr true).withEvent .frozen

/-- The host's invalid-opcode exception (R106): nothing else changes. -/
def State.raiseInvalidOpcode (s : State) : State := s.withEvent (.invalidOpcode s.here)

/-- The host returns control at an address (R421: by its IRET, to the address it was given or another): the FPU state is
as the handler's instructions left it. -/
def State.hostReturn (s : State) (p : FarPtr) : State :=
  { s with eip := p.extractLsb' 0 32, segs := { s.segs with cs := p.extractLsb' 32 16 }, event := .none }

/-- What CheckPending finds (R415). -/
inductive Pending where
  | clear
  | mf
  | frozen
deriving DecidableEq, Repr

/-- CheckPending of R415. -/
def State.pending (s : State) : Pending :=
  if !s.sw.es then .clear
  else if s.ne then .mf
  else if s.ignne then .clear
  else .frozen

/-- A waiting instruction: CheckPending, then the rest (R351, R415). -/
def State.waiting (s : State) (body : State → Result) : Result :=
  match s.pending with
  | .clear => body s
  | .mf => .next s.raiseMF
  | .frozen => .next s.freeze

end Sys2Proof.Machine
end

