-- ==== Sys2Proof/Machine/Operands.lean ====
section
/-! DEFINITION. The operands: the address of a memory operand (spec/30_encoding.md R103 to R106), its bytes, and what the
pre-operation checks read of an operand (spec/40_formats_numerics.md R172). -/

namespace Sys2Proof.Machine

/-! ### Addresses -/

/-- A general register (R103). -/
def Gprs.get (g : Gprs) : Reg → Word32
  | .eax => g.eax
  | .ecx => g.ecx
  | .edx => g.edx
  | .ebx => g.ebx
  | .esp => g.esp
  | .ebp => g.ebp
  | .esi => g.esi
  | .edi => g.edi

/-- A 32-bit displacement (R103). -/
def dispValue : Disp32 → Word32
  | .none => 0#32
  | .d8 d => d.signExtend 32
  | .d32 d => d

/-- A 16-bit displacement (R105). -/
def dispValue16 : Disp16 → Word16
  | .none => 0#16
  | .d8 d => d.signExtend 16
  | .d16 d => d

/-- The low half of a register. -/
def low16 (r : Word32) : Word16 := r.extractLsb' 0 16

/-- The register sum of 16-bit addressing (R105). -/
def base16Value (g : Gprs) : Base16 → Word16
  | .bxsi => low16 g.ebx + low16 g.esi
  | .bxdi => low16 g.ebx + low16 g.edi
  | .bpsi => low16 g.ebp + low16 g.esi
  | .bpdi => low16 g.ebp + low16 g.edi
  | .si => low16 g.esi
  | .di => low16 g.edi
  | .bp => low16 g.ebp
  | .bx => low16 g.ebx

/-- The scaled index of a SIB byte (R104). -/
def indexValue (g : Gprs) (scale : BitVec 2) : Option Reg → Word32
  | none => 0#32
  | some x => g.get x <<< scale.toNat

/-- The offset of a memory operand (R103 to R105). -/
def MemForm.offset (g : Gprs) : MemForm → Word32
  | .base r d => g.get r + dispValue d
  | .abs d => d
  | .sib sc x b d => g.get b + indexValue g sc x + dispValue d
  | .sibAbs sc x d => d + indexValue g sc x
  | .base16 b d => (base16Value g b + dispValue16 d).zeroExtend 32
  | .abs16 d => d.zeroExtend 32

/-- The default segment of an addressing form (R103 to R105). -/
def MemForm.defaultSeg : MemForm → Seg
  | .base r _ => if r = .ebp then .ss else .ds
  | .abs _ => .ds
  | .sib _ _ b _ => if b = .esp ∨ b = .ebp then .ss else .ds
  | .sibAbs _ _ _ => .ds
  | .base16 b _ => if b = .bpsi ∨ b = .bpdi ∨ b = .bp then .ss else .ds
  | .abs16 _ => .ds

/-- The segment a prefix names (R106). -/
def Prefix.seg : Prefix → Option Seg
  | .es => some .es
  | .cs => some .cs
  | .ss => some .ss
  | .ds => some .ds
  | .fs => some .fs
  | .gs => some .gs
  | .addrSize => none
  | .opSize => none
  | .lock => none
  | .repne => none
  | .rep => none

/-- The segment of the memory operand: the last segment override, or the default (R106). -/
def segmentOf (p : List Prefix) (m : MemForm) : Seg := ((p.filterMap Prefix.seg).getLast?).getD (MemForm.defaultSeg m)

/-- The offset of the memory operand in a state. -/
def State.offset (s : State) (m : MemForm) : Word32 := MemForm.offset s.gprs m

/-- The address of the memory operand as a number: the linear address of a flat memory (R78, D13). -/
def State.addr (s : State) (m : MemForm) : Nat := (s.offset m).toNat

/-- The operand's pointer as FDP records it (R45, R47). -/
def State.operandPtr (s : State) (p : List Prefix) (m : MemForm) : FarPtr := s.segs.get (segmentOf p m) ++ s.offset m

/-- The operand of `n` bytes lies within the offset space (U13). -/
def State.inRange (s : State) (m : MemForm) (n : Nat) : Bool := decide (s.addr m + n ≤ memEnd)

/-! ### Operands of the numeric instructions -/

/-- A source operand after conversion (R172): its value, whether its register is empty, and whether it counts as
denormal. -/
structure Operand where
  val : Ext
  empty : Bool
  denormal : Bool
deriving DecidableEq, Repr

/-- ST(i) as a source. -/
def State.stOperand (s : State) (i : StIdx) : Operand :=
  { val := s.st i, empty := s.stEmpty i, denormal := isDenormal (s.st i) }

/-- A single-real in memory as a source (R152). -/
def State.single (s : State) (a : Nat) : Operand :=
  let v := BitVec.ofNat 32 (s.read a 4)
  { val := extOfSingle v, empty := false, denormal := isDenormalSingle v }

/-- A double-real in memory as a source (R152). -/
def State.double (s : State) (a : Nat) : Operand :=
  let v := BitVec.ofNat 64 (s.read a 8)
  { val := extOfDouble v, empty := false, denormal := isDenormalDouble v }

/-- An integer in memory as a source (R153, R171). -/
def State.int (s : State) (a bytes : Nat) : Operand :=
  { val := extOfInt (intOf (8 * bytes) (BitVec.ofNat (8 * bytes) (s.read a bytes))), empty := false, denormal := false }

/-! ### The frame of an instruction -/

/-- A non-control instruction without a memory operand: the wait check, the pointers, the body (R11, R47). -/
def State.nonControl (s : State) (i : Instr) (body : State → Except Refusal State) : Result :=
  s.waiting fun s =>
    match body (s.updatePointers i none) with
    | .ok t => .next (t.advance i.length)
    | .error r => .refused r

/-- A non-control instruction with a memory operand of `n` bytes: the body is given its address (R11, R76, U13). -/
def State.nonControlMem (s : State) (i : Instr) (m : MemForm) (n : Nat)
    (body : Nat → State → Except Refusal State) : Result :=
  s.waiting fun s =>
    if s.inRange m n then
      match body (s.addr m) (s.updatePointers i (some (s.operandPtr i.prefixes m))) with
      | .ok t => .next (t.advance i.length)
      | .error r => .refused r
    else .fault .operandPastEnd

/-- The body of a control instruction without a memory operand: it records no pointers (R46). -/
def State.control (s : State) (i : Instr) (body : State → State) : Result := .next ((body s).advance i.length)

/-- The body of a control instruction with a memory operand of `n` bytes (R46, R76, U13). -/
def State.controlMem (s : State) (i : Instr) (m : MemForm) (n : Nat) (body : Nat → State → State) : Result :=
  if s.inRange m n then .next ((body (s.addr m) s).advance i.length) else .fault .operandPastEnd

end Sys2Proof.Machine
end

