-- ==== Sys2Proof/Machine/Rounding.lean ====
section
/-! DEFINITION. Exact results and the rounding function of spec/40_formats_numerics.md (R155 to R158). -/

namespace Sys2Proof.Machine

/-- The magnitude of an infinitely precise result: a quotient or a square root, times a power of two. -/
inductive Mag where
  /-- `num / den * 2^k` -/
  | ratio (num den : Nat) (k : Int)
  /-- `sqrt num * 2^k` -/
  | root (num : Nat) (k : Int)
deriving DecidableEq, Repr

/-- An infinitely precise non-zero result. -/
structure Exact where
  neg : Bool
  mag : Mag
deriving DecidableEq, Repr

/-- A number as an exact result. -/
def exactNum (x : Num) : Exact := { neg := x.neg, mag := .ratio x.n 1 x.k }

/-- The greatest `r + x`, `x` below `2^b`, whose square is at most `n`. -/
def isqrtFrom : Nat → Nat → Nat → Nat
  | 0, _, r => r
  | b + 1, n, r => isqrtFrom b n (if (r + 2 ^ b) * (r + 2 ^ b) ≤ n then r + 2 ^ b else r)

/-- The integer square root. -/
def isqrt (n : Nat) : Nat := isqrtFrom (n.log2 / 2 + 1) n 0

/-- floor(log2 x). -/
def Mag.floorLog2 : Mag → Int
  | .ratio num den k =>
    let e : Int := (num.log2 : Int) - den.log2
    let below : Bool := if 0 ≤ e then decide (num < den <<< e.toNat) else decide (num <<< (-e).toNat < den)
    e + k - if below then 1 else 0
  | .root num k => ((num.log2 / 2 : Nat) : Int) + k

/-- A magnitude cut down to a multiple of a grid spacing: how many spacings, how the rest compares with half a spacing,
and whether there is no rest. -/
structure Cut where
  lo : Nat
  half : Ordering
  exact : Bool
deriving DecidableEq, Repr

/-- The cut on the grid of spacing `2^q`. -/
def Mag.cut (m : Mag) (q : Int) : Cut :=
  match m with
  | .ratio num den k =>
    let a := num <<< (k - q).toNat
    let b := den <<< (q - k).toNat
    { lo := a / b, half := compare (2 * (a % b)) b, exact := a % b == 0 }
  | .root num k =>
    let a := num <<< (2 * (k - q)).toNat
    let t := (2 * (q - k)).toNat
    let lo := isqrt (a >>> t)
    { lo := lo, half := compare (4 * a) (((2 * lo + 1) * (2 * lo + 1)) <<< t), exact := (lo * lo) <<< t == a }

/-- A rounded magnitude `n * 2^q`, with the inexact and up bits of R156. -/
structure Rounded where
  n : Nat
  q : Int
  inexact : Bool
  up : Bool
deriving DecidableEq, Repr

/-- Whether R156 takes the candidate away from zero. -/
def roundsAway (rc : RoundMode) (neg : Bool) (c : Cut) : Bool :=
  match rc with
  | .nearest => c.half == .gt || (c.half == .eq && c.lo % 2 == 1)
  | .down => neg
  | .up => !neg
  | .zero => false

/-- RoundGrid of R156 on the spacing `2^q`. -/
def roundGrid (x : Exact) (q : Int) (rc : RoundMode) : Rounded :=
  let c := x.mag.cut q
  if c.exact then { n := c.lo, q := q, inexact := false, up := false }
  else if roundsAway rc x.neg c then { n := c.lo + 1, q := q, inexact := true, up := true }
  else { n := c.lo, q := q, inexact := true, up := false }

/-- RoundP of R156: `p` significant bits, unbounded exponent. -/
def roundP (x : Exact) (p : Nat) (rc : RoundMode) : Rounded := roundGrid x (x.mag.floorLog2 - p + 1) rc

/-- RoundInt of R157. -/
def roundInt (x : Num) (rc : RoundMode) : Rounded := roundGrid (exactNum x) 0 rc

/-- floor(log2) of a rounded non-zero magnitude: it is at least `2^(emax+1)` when this exceeds emax, and below `2^emin`
when this is below emin. -/
def Rounded.exponent (r : Rounded) : Int := (r.n.log2 : Int) + r.q

/-! ### Exact arithmetic on numbers (R184) -/

/-- Val(a) + Val(b). -/
def addNum (a b : Num) : Num :=
  let k := min a.k b.k
  let x : Int := (if a.neg then -1 else 1) * ((a.n <<< (a.k - k).toNat : Nat) : Int)
  let y : Int := (if b.neg then -1 else 1) * ((b.n <<< (b.k - k).toNat : Nat) : Int)
  { neg := decide (x + y < 0), n := (x + y).natAbs, k := k }

/-- Val(a) * Val(b). -/
def mulNum (a b : Num) : Num := { neg := a.neg ^^ b.neg, n := a.n * b.n, k := a.k + b.k }

/-- Val(a) / Val(b) for b other than 0. -/
def divNum (a b : Num) : Exact := { neg := a.neg ^^ b.neg, mag := .ratio a.n b.n (a.k - b.k) }

/-- The square root of a positive number. -/
def sqrtNum (a : Num) : Exact :=
  { neg := false, mag := if a.k % 2 = 0 then .root a.n (a.k / 2) else .root (2 * a.n) ((a.k - 1) / 2) }

/-- Val(a) compared with Val(b). -/
def compareNum (a b : Num) : Ordering :=
  let k := min a.k b.k
  let x : Int := (if a.neg then -1 else 1) * ((a.n <<< (a.k - k).toNat : Nat) : Int)
  let y : Int := (if b.neg then -1 else 1) * ((b.n <<< (b.k - k).toNat : Nat) : Int)
  Ord.compare x y

/-- The same number with an odd significand, so that equal numbers are equal data: the argument of the NUMERICS
functions (R168). -/
def oddPart : Nat → Nat → Int → Nat × Int
  | 0, n, k => (n, k)
  | fuel + 1, n, k => if n % 2 = 0 then oddPart fuel (n / 2) (k + 1) else (n, k)

/-- The canonical form of a number: an odd significand, or 0 with exponent 0. -/
def normNum (x : Num) : Num :=
  if x.n = 0 then { neg := x.neg, n := 0, k := 0 }
  else
    let p := oddPart x.n.log2 x.n x.k
    { neg := x.neg, n := p.1, k := p.2 }

end Sys2Proof.Machine
end

