-- ==== Sys2Proof/Machine/Numeric.lean ====
section
/-! DEFINITION. The pre-operation checks of an arithmetic instruction and the delivery of its result
(spec/40_formats_numerics.md R159 to R163, R172, R182, R183; spec/45_transcendental.md R320). -/

namespace Sys2Proof.Machine

/-! ### Pre-operation checks (R172) -/

/-- NaNResult of the operands (R165). -/
def nanOf : List Operand → Ext
  | [a] => quiet a.val
  | [a, b] => nanResult a.val b.val
  | _ => realIndefinite

/-- What an instruction does in steps 1a to 2 of R172: each is given the state after Signal, and C1 is 0 in the last
two. -/
structure Responses where
  /-- The masked response to a stack underflow (R182). -/
  underflow : State → State
  /-- The masked response to an unsupported operand (step 1c). -/
  invalid : State → State
  /-- The response to a NaN operand, masked if it is an SNaN (steps 1d and 2). -/
  nan : Ext → State → State

/-- The masked response to a stack overflow (R183): the register pushed to receives the real indefinite. -/
def State.overflowPush (s : State) : State := s.push realIndefinite

/-- Steps 1a to 2 of R172; `go` is the rest of the instruction. -/
def preChecks (ops : List Operand) (pushes : Bool) (r : Responses) (go : State → Except Refusal State) (s : State) :
    Except Refusal State :=
  if ops.any fun a => a.empty then .ok (s.respond .isUnder r.underflow)
  else if pushes && s.pushOverflows then .ok (s.respond .isOver State.overflowPush)
  else if ops.any fun a => isUnsupported a.val then .ok (s.respond .ia fun t => r.invalid (t.setC1 false))
  else if ops.any fun a => classOf a.val == .snan then .ok (s.respond .ia fun t => r.nan (nanOf ops) (t.setC1 false))
  else if ops.any fun a => classOf a.val == .qnan then .ok (r.nan (nanOf ops) (s.setC1 false))
  else go s

/-- Step 4 of R172. -/
def denormalCheck (ops : List Operand) (go : State → Except Refusal State) (s : State) : Except Refusal State :=
  if ops.any fun a => a.denormal then
    if s.masked .d then go (s.signal .d) else .ok (s.signal .d)
  else go s

/-! ### Delivery (R163) -/

/-- The masked overflow response (R159, Table 31-22). -/
def overflowValue (f : Fmt) (rc : RoundMode) (neg : Bool) : RealValue :=
  let largest := RealValue.finite neg (2 ^ f.prec - 1) (f.emax - f.prec + 1)
  match rc with
  | .nearest => .infinite neg
  | .down => if neg then .infinite neg else largest
  | .up => if neg then largest else .infinite neg
  | .zero => largest

/-- An infinity. -/
def RealValue.isInfinite : RealValue → Bool
  | .infinite _ => true
  | .finite _ _ _ => false
  | .nan _ _ => false

/-- PE and C1 for a rounded result (R158, R163): Signal(P) where it is inexact, C1 the up bit, 0 where it is exact. -/
def State.reportInexact (s : State) (inexact up : Bool) : State :=
  if inexact then (s.signal .p).setC1 up else s.setC1 false

/-- A masked overflow (R159). -/
def State.overflowMasked (s : State) (v : RealValue) : State := ((s.signal .o).signal .p).setC1 v.isInfinite

/-- Deliver of R163 for the precision `p` and the limits of the destination: the state and what is written, or none for
NotStored. -/
def deliver (f : Fmt) (p : Nat) (toMem : Bool) (x : Exact) (s : State) : State × Option RealValue :=
  let rc := rcOf s.cw
  let r := roundP x p rc
  if f.emax < r.exponent then
    if s.masked .o then
      let v := overflowValue f rc x.neg
      (s.overflowMasked v, some v)
    else if toMem then (s.signal .o, none)
    else ((s.signal .o).reportInexact r.inexact r.up, some (.finite x.neg r.n (r.q - 24576)))
  else if r.exponent < f.emin then
    if s.masked .u then
      let z := roundGrid x (f.emin - (p - 1 : Nat)) rc
      ((if z.inexact then s.signal .u else s).reportInexact z.inexact z.up, some (.finite x.neg z.n z.q))
    else if toMem then (s.signal .u, none)
    else ((s.signal .u).reportInexact r.inexact r.up, some (.finite x.neg r.n (r.q + 24576)))
  else (s.reportInexact r.inexact r.up, some (.finite x.neg r.n r.q))

/-- Deliver to a register (R163): the state and the value to write. -/
def deliverReg (p : Nat) (x : Exact) (s : State) : State × Ext :=
  let d := deliver fmtExt p false x s
  (d.1, (d.2.map extOfReal).getD realIndefinite)

/-- The rounded magnitude a NUMERICS function returns (R320). -/
def roundedOf (a : Approx) : Rounded :=
  { n := 2 ^ 63 + a.frac.toNat, q := a.exp, inexact := a.inexact, up := a.up }

/-- DeliverT of R320: the state and the value to write. -/
def deliverT (a : Approx) (s : State) : State × Ext :=
  let rc := rcOf s.cw
  let r := roundedOf a
  if fmtExt.emax < r.exponent then
    if s.masked .o then
      let v := overflowValue fmtExt rc a.neg
      (s.overflowMasked v, extOfReal v)
    else ((s.signal .o).reportInexact r.inexact r.up, extOfReal (.finite a.neg r.n (r.q - 24576)))
  else if r.exponent < fmtExt.emin then
    if s.masked .u then
      let z := roundGrid { neg := a.neg, mag := .ratio r.n 1 r.q } (-16445) rc
      if !r.inexact && !z.inexact then (s.setC1 false, extOfReal (.finite a.neg z.n z.q))
      else
        (((s.signal .u).signal .p).setC1 (if z.inexact then z.up else r.up), extOfReal (.finite a.neg z.n z.q))
    else ((s.signal .u).reportInexact r.inexact r.up, extOfReal (.finite a.neg r.n (r.q + 24576)))
  else (s.reportInexact r.inexact r.up, extOfReal (.finite a.neg r.n r.q))

end Sys2Proof.Machine
end

