-- ==== Sys2Proof/Machine/Arithmetic.lean ====
section
/-! DEFINITION. Basic arithmetic (spec/43_basic_arithmetic.md). -/

namespace Sys2Proof.Machine

/-! ### The four operations and the square root (R184) -/

/-- The operations of R184; the reverse forms swap the operands (R240). -/
inductive BinOp where
  | add
  | sub
  | mul
  | div
deriving DecidableEq, Repr

/-- What R184 gives for two supported operands that are no NaN. -/
inductive OpResult where
  | invalid
  | zeroDivide (neg : Bool)
  | exact (v : Ext)
  | number (x : Exact)
deriving DecidableEq, Repr

/-- An infinity (R141). -/
def isInf (v : Ext) : Bool := classOf v == .infinity

/-- A zero (R138). -/
def isZero (v : Ext) : Bool := classOf v == .zero

/-- The value with its sign inverted. -/
def negate (v : Ext) : Ext := v ^^^ (1#80 <<< 79)

/-- Add of R184. -/
def addExt (rc : RoundMode) (a b : Ext) : OpResult :=
  if isInf a && isInf b then (if signOf a == signOf b then .exact a else .invalid)
  else if isInf a then .exact a
  else if isInf b then .exact b
  else if isZero a && isZero b then .exact (if signOf a == signOf b then zero (signOf a) else zero (rc == .down))
  else
    let x := addNum (valOf a) (valOf b)
    if x.n = 0 then .exact (zero (rc == .down)) else .number (exactNum x)

/-- Mul of R184. -/
def mulExt (a b : Ext) : OpResult :=
  let neg := signOf a ^^ signOf b
  if (isInf a && isZero b) || (isZero a && isInf b) then .invalid
  else if isInf a || isInf b then .exact (infinity neg)
  else if isZero a || isZero b then .exact (zero neg)
  else .number (exactNum (mulNum (valOf a) (valOf b)))

/-- Div of R184. -/
def divExt (a b : Ext) : OpResult :=
  let neg := signOf a ^^ signOf b
  if (isInf a && isInf b) || (isZero a && isZero b) then .invalid
  else if isInf a then .exact (infinity neg)
  else if isZero b then .zeroDivide neg
  else if isInf b || isZero a then .exact (zero neg)
  else .number (divNum (valOf a) (valOf b))

/-- The operation on two operands. -/
def binOp (op : BinOp) (rc : RoundMode) (a b : Ext) : OpResult :=
  match op with
  | .add => addExt rc a b
  | .sub => addExt rc a (negate b)
  | .mul => mulExt a b
  | .div => divExt a b

/-- Sqrt of R184. -/
def sqrtExt (a : Ext) : OpResult :=
  if isZero a then .exact a
  else if signOf a then .invalid
  else if isInf a then .exact a
  else .number (sqrtNum (valOf a))

/-! ### The common procedure (R241) -/

/-- The destination and the pop of R241. -/
structure Dest where
  i : StIdx
  pop : Bool
deriving DecidableEq, Repr

/-- `dest <- v`, then the pop. -/
def State.writeDest (s : State) (d : Dest) (v : Ext) : State :=
  if d.pop then (s.setSt d.i v).pop else s.setSt d.i v

/-- The responses of an instruction whose one result goes to a register, then a pop or none. -/
def toDest (d : Dest) : Responses where
  underflow := fun s => s.writeDest d realIndefinite
  invalid := fun s => s.writeDest d realIndefinite
  nan := fun v s => s.writeDest d v

/-- Steps 3 to 6 of R172 for a result of R184, rounded to precision `p`; PC = 01B has none (U3). -/
def respondResult (ops : List Operand) (x : OpResult) (p : Option Nat) (d : Dest) (s : State) : Except Refusal State :=
  match x with
  | .invalid => .ok (s.respond .ia fun t => (t.setC1 false).writeDest d realIndefinite)
  | .zeroDivide neg => .ok (s.respond .z fun t => (t.setC1 false).writeDest d (infinity neg))
  | .exact v => denormalCheck ops (fun t => .ok ((t.setC1 false).writeDest d v)) s
  | .number e =>
    denormalCheck ops (fun t =>
      match p with
      | none => .error .precisionReserved
      | some p =>
        let r := deliverReg p e t
        .ok (r.1.writeDest d r.2)) s

/-- Arith of R241 after Begin(): C0, C2, C3 undefined (R240). -/
def arith (op : BinOp) (a b : Operand) (p : Option Nat) (d : Dest) (s : State) : Except Refusal State :=
  preChecks [a, b] false (toDest d)
    (fun t => respondResult [a, b] (binOp op (rcOf t.cw) a.val b.val) p d t) s.freeCodes

/-- The destination ST(0), no pop. -/
def st0 : Dest := { i := 0#3, pop := false }

/-- The precision of the integer forms (R155, D12). -/
def State.intPrec (s : State) : Option Nat := if s.params.pcAppliesToIntegerForms then precOf s.cw else some 64

/-- `FopR`: the operands swapped or not. -/
def arithDir (op : BinOp) (rev : Bool) (a b : Operand) (p : Option Nat) (d : Dest) (s : State) : Except Refusal State :=
  if rev then arith op b a p d s else arith op a b p d s

/-- Fop m32real: ST(0) <- ST(0) OP m, reversed or not (R240). -/
def arithSingle (i : Instr) (op : BinOp) (rev : Bool) (m : MemForm) (s : State) : Result :=
  s.nonControlMem i m 4 fun a s => arithDir op rev (s.stOperand 0#3) (s.single a) (precOf s.cw) st0 s

/-- Fop m64real. -/
def arithDouble (i : Instr) (op : BinOp) (rev : Bool) (m : MemForm) (s : State) : Result :=
  s.nonControlMem i m 8 fun a s => arithDir op rev (s.stOperand 0#3) (s.double a) (precOf s.cw) st0 s

/-- FIop m16int and FIop m32int, by the bytes of the operand. -/
def arithInt (i : Instr) (op : BinOp) (rev : Bool) (bytes : Nat) (m : MemForm) (s : State) : Result :=
  s.nonControlMem i m bytes fun a s => arithDir op rev (s.stOperand 0#3) (s.int a bytes) s.intPrec st0 s

/-- Fop ST, ST(j): ST(0) <- ST(0) OP ST(j). -/
def arithSt0 (i : Instr) (op : BinOp) (rev : Bool) (j : StIdx) (s : State) : Result :=
  s.nonControl i fun s => arithDir op rev (s.stOperand 0#3) (s.stOperand j) (precOf s.cw) st0 s

/-- Fop ST(j), ST and, with a pop, FopP ST(j), ST: ST(j) <- ST(j) OP ST(0). -/
def arithSti (i : Instr) (op : BinOp) (rev : Bool) (j : StIdx) (pop : Bool) (s : State) : Result :=
  s.nonControl i fun s =>
    arithDir op rev (s.stOperand j) (s.stOperand 0#3) (precOf s.cw) { i := j, pop := pop } s

/-! ### The two-operand instructions (R242 to R259) -/

/-- R242: FADD m32real. -/
def execFaddM32 (p : List Prefix) (m : MemForm) (s : State) : Result :=
  arithSingle (.faddM32 p m) .add false m s

/-- R251: FMUL m32real. -/
def execFmulM32 (p : List Prefix) (m : MemForm) (s : State) : Result :=
  arithSingle (.fmulM32 p m) .mul false m s

/-- R245: FSUB m32real. -/
def execFsubM32 (p : List Prefix) (m : MemForm) (s : State) : Result :=
  arithSingle (.fsubM32 p m) .sub false m s

/-- R248: FSUBR m32real. -/
def execFsubrM32 (p : List Prefix) (m : MemForm) (s : State) : Result :=
  arithSingle (.fsubrM32 p m) .sub true m s

/-- R254: FDIV m32real. -/
def execFdivM32 (p : List Prefix) (m : MemForm) (s : State) : Result :=
  arithSingle (.fdivM32 p m) .div false m s

/-- R257: FDIVR m32real. -/
def execFdivrM32 (p : List Prefix) (m : MemForm) (s : State) : Result :=
  arithSingle (.fdivrM32 p m) .div true m s

/-- R242: FADD ST(0), ST(i). -/
def execFaddSt0Sti (p : List Prefix) (i : StIdx) (s : State) : Result :=
  arithSt0 (.faddSt0Sti p i) .add false i s

/-- R251: FMUL ST(0), ST(i). -/
def execFmulSt0Sti (p : List Prefix) (i : StIdx) (s : State) : Result :=
  arithSt0 (.fmulSt0Sti p i) .mul false i s

/-- R245: FSUB ST(0), ST(i). -/
def execFsubSt0Sti (p : List Prefix) (i : StIdx) (s : State) : Result :=
  arithSt0 (.fsubSt0Sti p i) .sub false i s

/-- R248: FSUBR ST(0), ST(i). -/
def execFsubrSt0Sti (p : List Prefix) (i : StIdx) (s : State) : Result :=
  arithSt0 (.fsubrSt0Sti p i) .sub true i s

/-- R254: FDIV ST(0), ST(i). -/
def execFdivSt0Sti (p : List Prefix) (i : StIdx) (s : State) : Result :=
  arithSt0 (.fdivSt0Sti p i) .div false i s

/-- R257: FDIVR ST(0), ST(i). -/
def execFdivrSt0Sti (p : List Prefix) (i : StIdx) (s : State) : Result :=
  arithSt0 (.fdivrSt0Sti p i) .div true i s

/-- R244: FIADD m32int. -/
def execFiaddM32i (p : List Prefix) (m : MemForm) (s : State) : Result :=
  arithInt (.fiaddM32i p m) .add false 4 m s

/-- R253: FIMUL m32int. -/
def execFimulM32i (p : List Prefix) (m : MemForm) (s : State) : Result :=
  arithInt (.fimulM32i p m) .mul false 4 m s

/-- R247: FISUB m32int. -/
def execFisubM32i (p : List Prefix) (m : MemForm) (s : State) : Result :=
  arithInt (.fisubM32i p m) .sub false 4 m s

/-- R250: FISUBR m32int. -/
def execFisubrM32i (p : List Prefix) (m : MemForm) (s : State) : Result :=
  arithInt (.fisubrM32i p m) .sub true 4 m s

/-- R256: FIDIV m32int. -/
def execFidivM32i (p : List Prefix) (m : MemForm) (s : State) : Result :=
  arithInt (.fidivM32i p m) .div false 4 m s

/-- R259: FIDIVR m32int. -/
def execFidivrM32i (p : List Prefix) (m : MemForm) (s : State) : Result :=
  arithInt (.fidivrM32i p m) .div true 4 m s

/-- R242: FADD m64real. -/
def execFaddM64 (p : List Prefix) (m : MemForm) (s : State) : Result :=
  arithDouble (.faddM64 p m) .add false m s

/-- R251: FMUL m64real. -/
def execFmulM64 (p : List Prefix) (m : MemForm) (s : State) : Result :=
  arithDouble (.fmulM64 p m) .mul false m s

/-- R245: FSUB m64real. -/
def execFsubM64 (p : List Prefix) (m : MemForm) (s : State) : Result :=
  arithDouble (.fsubM64 p m) .sub false m s

/-- R248: FSUBR m64real. -/
def execFsubrM64 (p : List Prefix) (m : MemForm) (s : State) : Result :=
  arithDouble (.fsubrM64 p m) .sub true m s

/-- R254: FDIV m64real. -/
def execFdivM64 (p : List Prefix) (m : MemForm) (s : State) : Result :=
  arithDouble (.fdivM64 p m) .div false m s

/-- R257: FDIVR m64real. -/
def execFdivrM64 (p : List Prefix) (m : MemForm) (s : State) : Result :=
  arithDouble (.fdivrM64 p m) .div true m s

/-- R242: FADD ST(i), ST(0). -/
def execFaddStiSt0 (p : List Prefix) (i : StIdx) (s : State) : Result :=
  arithSti (.faddStiSt0 p i) .add false i false s

/-- R251: FMUL ST(i), ST(0). -/
def execFmulStiSt0 (p : List Prefix) (i : StIdx) (s : State) : Result :=
  arithSti (.fmulStiSt0 p i) .mul false i false s

/-- R248: FSUBR ST(i), ST(0). -/
def execFsubrStiSt0 (p : List Prefix) (i : StIdx) (s : State) : Result :=
  arithSti (.fsubrStiSt0 p i) .sub true i false s

/-- R245: FSUB ST(i), ST(0). -/
def execFsubStiSt0 (p : List Prefix) (i : StIdx) (s : State) : Result :=
  arithSti (.fsubStiSt0 p i) .sub false i false s

/-- R257: FDIVR ST(i), ST(0). -/
def execFdivrStiSt0 (p : List Prefix) (i : StIdx) (s : State) : Result :=
  arithSti (.fdivrStiSt0 p i) .div true i false s

/-- R254: FDIV ST(i), ST(0). -/
def execFdivStiSt0 (p : List Prefix) (i : StIdx) (s : State) : Result :=
  arithSti (.fdivStiSt0 p i) .div false i false s

/-- R244: FIADD m16int. -/
def execFiaddM16i (p : List Prefix) (m : MemForm) (s : State) : Result :=
  arithInt (.fiaddM16i p m) .add false 2 m s

/-- R253: FIMUL m16int. -/
def execFimulM16i (p : List Prefix) (m : MemForm) (s : State) : Result :=
  arithInt (.fimulM16i p m) .mul false 2 m s

/-- R247: FISUB m16int. -/
def execFisubM16i (p : List Prefix) (m : MemForm) (s : State) : Result :=
  arithInt (.fisubM16i p m) .sub false 2 m s

/-- R250: FISUBR m16int. -/
def execFisubrM16i (p : List Prefix) (m : MemForm) (s : State) : Result :=
  arithInt (.fisubrM16i p m) .sub true 2 m s

/-- R256: FIDIV m16int. -/
def execFidivM16i (p : List Prefix) (m : MemForm) (s : State) : Result :=
  arithInt (.fidivM16i p m) .div false 2 m s

/-- R259: FIDIVR m16int. -/
def execFidivrM16i (p : List Prefix) (m : MemForm) (s : State) : Result :=
  arithInt (.fidivrM16i p m) .div true 2 m s

/-- R243: FADDP ST(i), ST(0). -/
def execFaddp (p : List Prefix) (i : StIdx) (s : State) : Result :=
  arithSti (.faddp p i) .add false i true s

/-- R252: FMULP ST(i), ST(0). -/
def execFmulp (p : List Prefix) (i : StIdx) (s : State) : Result :=
  arithSti (.fmulp p i) .mul false i true s

/-- R249: FSUBRP ST(i), ST(0). -/
def execFsubrp (p : List Prefix) (i : StIdx) (s : State) : Result :=
  arithSti (.fsubrp p i) .sub true i true s

/-- R246: FSUBP ST(i), ST(0). -/
def execFsubp (p : List Prefix) (i : StIdx) (s : State) : Result :=
  arithSti (.fsubp p i) .sub false i true s

/-- R258: FDIVRP ST(i), ST(0). -/
def execFdivrp (p : List Prefix) (i : StIdx) (s : State) : Result :=
  arithSti (.fdivrp p i) .div true i true s

/-- R255: FDIVP ST(i), ST(0). -/
def execFdivp (p : List Prefix) (i : StIdx) (s : State) : Result :=
  arithSti (.fdivp p i) .div false i true s

/-! ### Sign operations (R260, R261) -/

/-- FABS and FCHS: the sign bit of ST(0) changed by `f`, whatever the operand. -/
def signOp (i : Instr) (f : Ext → Ext) (s : State) : Result :=
  s.nonControl i fun s =>
    let s := s.freeCodes
    .ok (if s.stEmpty 0#3 then s.respond .isUnder fun t => t.setSt 0#3 realIndefinite
      else (s.setC1 false).setSt 0#3 (f (s.st 0#3)))

/-- R260. -/
def execFabs (p : List Prefix) (s : State) : Result := signOp (.fabs p) (fun v => v &&& ~~~(1#80 <<< 79)) s

/-- R261. -/
def execFchs (p : List Prefix) (s : State) : Result := signOp (.fchs p) negate s

/-! ### Square root (R262) -/

/-- R262. -/
def execFsqrt (p : List Prefix) (s : State) : Result :=
  s.nonControl (.fsqrt p) fun s =>
    let a := s.stOperand 0#3
    preChecks [a] false (toDest st0) (fun t => respondResult [a] (sqrtExt a.val) (precOf t.cw) st0 t) s.freeCodes

/-! ### Partial remainder (R263, R264) -/

/-- Whether the complete case truncates the quotient (FPREM) or rounds it to nearest (FPREM1). -/
inductive RemKind where
  | truncate
  | nearest
deriving DecidableEq, Repr

/-- A remainder: the dividend less `quot` times the divisor, the quotient's magnitude, and whether the reduction is
complete. -/
structure Remainder where
  r : Num
  quot : Nat
  complete : Bool
deriving DecidableEq, Repr

/-- The step of R263 and R264 for finite non-zero operands. -/
def remainder (kind : RemKind) (a b : Num) : Remainder :=
  let d : Int := ((a.n.log2 : Int) + a.k) - ((b.n.log2 : Int) + b.k)
  let k := min a.k b.k
  let x := a.n <<< (a.k - k).toNat
  let y := b.n <<< (b.k - k).toNat
  if d < 64 then
    let q := x / y
    let up : Bool :=
      match kind with
      | .truncate => false
      | .nearest => decide (y < 2 * (x % y)) || (decide (2 * (x % y) = y) && q % 2 == 1)
    if up then { r := { neg := !a.neg, n := y - x % y, k := k }, quot := q + 1, complete := true }
    else { r := { neg := a.neg, n := x % y, k := k }, quot := q, complete := true }
  else
    let n := 32 + (Config.premReduceOver32 d.toNat).val
    { r := { neg := a.neg, n := x % (y <<< (d - n).toNat), k := k }, quot := 0, complete := false }

/-- The remainder written (R263): a zero has the dividend's sign; Deliver does not touch C1. -/
def State.writeRemainder (s : State) (neg : Bool) (r : Num) : State :=
  if r.n = 0 then s.setSt 0#3 (zero neg)
  else
    let d := deliverReg 64 (exactNum r) s
    (d.1.setC1 s.sw.c1).setSt 0#3 d.2

/-- The condition codes of R263: Q2, Q1, Q0 where complete, undefined where not (U9). -/
def State.remainderCodes (s : State) (r : Remainder) : State :=
  if r.complete then (s.setCodes (r.quot.testBit 1) false (r.quot.testBit 2)).setC1 (r.quot.testBit 0)
  else (s.setCodes (Config.freeC3 s.draws) true (Config.freeC0 s.draws)).freeC1

/-- FPREM and FPREM1 after Begin(). -/
def prem (kind : RemKind) (s : State) : Except Refusal State :=
  let a := s.stOperand 0#3
  let b := s.stOperand 1#3
  preChecks [a, b] false (toDest st0)
    (fun t =>
      if isZero b.val || isInf a.val then
        .ok (t.respond .ia fun u => ((u.setC2 false).setC1 false).setSt 0#3 realIndefinite)
      else
        denormalCheck [a, b] (fun u =>
          if isInf b.val || isZero a.val then .ok ((u.setCodes false false false).setC1 false)
          else
            let r := remainder kind (valOf a.val) (valOf b.val)
            .ok ((u.remainderCodes r).writeRemainder (signOf a.val) r.r)) t) s.freeCodes

/-- R263. -/
def execFprem (p : List Prefix) (s : State) : Result := s.nonControl (.fprem p) (prem .truncate)

/-- R264. -/
def execFprem1 (p : List Prefix) (s : State) : Result := s.nonControl (.fprem1 p) (prem .nearest)

/-! ### Round to integer (R265) -/

/-- R265. -/
def execFrndint (p : List Prefix) (s : State) : Result :=
  s.nonControl (.frndint p) fun s =>
    let a := s.stOperand 0#3
    preChecks [a] false (toDest st0)
      (denormalCheck [a] fun t =>
        if isZero a.val || isInf a.val then .ok (t.setC1 false)
        else
          let x := valOf a.val
          let r := roundInt x (rcOf t.cw)
          .ok ((t.reportInexact r.inexact r.up).setSt 0#3 (extOfNum { neg := x.neg, n := r.n, k := 0 }))) s.freeCodes

/-! ### Extract (R266) -/

/-- The source register and the pushed register written. -/
def State.writePush (s : State) (v w : Ext) : State := (s.setSt 0#3 v).push w

/-- The responses of an instruction with a second, pushed result that holds the same indefinite or NaN. -/
def toPush : Responses where
  underflow := fun s => s.writePush realIndefinite realIndefinite
  invalid := fun s => s.writePush realIndefinite realIndefinite
  nan := fun v s => s.writePush v v

/-- The true exponent of a finite non-zero number. -/
def exponentOf (x : Num) : Int := (x.n.log2 : Int) + x.k

/-- R266. -/
def execFxtract (p : List Prefix) (s : State) : Result :=
  s.nonControl (.fxtract p) fun s =>
    let a := s.stOperand 0#3
    preChecks [a] true toPush
      (fun t =>
        if isZero a.val then .ok (t.respond .z fun u => (u.setC1 false).writePush (infinity true) a.val)
        else
          denormalCheck [a] (fun u =>
            if isInf a.val then .ok ((u.setC1 false).writePush (infinity false) a.val)
            else
              let x := valOf a.val
              .ok ((u.setC1 false).writePush (extOfInt (exponentOf x))
                (extOfNum { neg := x.neg, n := x.n, k := -(x.n.log2 : Int) }))) t) s.freeCodes

end Sys2Proof.Machine
end

