-- ==== Sys2Proof/Machine/Comparison.lean ====
section
/-! DEFINITION. Comparison and classification (spec/44_comparison.md). -/

namespace Sys2Proof.Machine

/-- The four relations of R290. -/
inductive Relation where
  | greater
  | less
  | equal
  | unordered
deriving DecidableEq, Repr

/-- A relation from an order. -/
def relationOf : Ordering → Relation
  | .lt => .less
  | .eq => .equal
  | .gt => .greater

/-- Cmp of R185 for two supported values that are no NaN: infinities at the ends, numbers by value, +0 equal to -0. -/
def cmpExt (a b : Ext) : Relation :=
  if isInf a then
    if isInf b && signOf a == signOf b then .equal else if signOf a then .less else .greater
  else if isInf b then (if signOf b then .greater else .less)
  else relationOf (compareNum (valOf a) (valOf b))

/-- The two kinds of R291. -/
inductive CompareKind where
  | ordered
  | unordered
deriving DecidableEq, Repr

/-- What Compare of R291 leaves: the state with its flags, and the relation, or none for Stop. -/
structure Compared where
  state : State
  relation : Option Relation

/-- A condition that makes the relation unordered when masked and stops when not (R291). -/
def signalUnordered (s : State) (c : Cond) : Compared :=
  { state := s.signal c, relation := if s.masked c then some .unordered else none }

/-- A NaN that the kind finds invalid: an SNaN, and a QNaN in an ordered compare (R291). -/
def invalidNan (kind : CompareKind) (v : Ext) : Bool :=
  classOf v == .snan || (kind == .ordered && classOf v == .qnan)

/-- Compare of R291. -/
def compareOps (a b : Operand) (kind : CompareKind) (checkD : Bool) (s : State) : Compared :=
  if a.empty || b.empty then signalUnordered s .isUnder
  else if isUnsupported a.val || isUnsupported b.val || invalidNan kind a.val || invalidNan kind b.val then
    signalUnordered s .ia
  else if isNan a.val || isNan b.val then { state := s, relation := some .unordered }
  else if checkD && (a.denormal || b.denormal) then
    { state := s.signal .d, relation := if s.masked .d then some (cmpExt a.val b.val) else none }
  else { state := s, relation := some (cmpExt a.val b.val) }

/-- SetCC of R292. -/
def State.setCC (s : State) : Relation → State
  | .greater => (s.setCodes false false false).setC1 false
  | .less => (s.setCodes false false true).setC1 false
  | .equal => (s.setCodes true false false).setC1 false
  | .unordered => (s.setCodes true true true).setC1 false

/-- SetEFLAGS of R303: C0, C2 and C3 are undefined. -/
def State.setRelationFlags (s : State) (r : Relation) : State :=
  let t := s.freeCodes.setC1 false
  match r with
  | .greater => t.setEflags false false false
  | .less => t.setEflags false false true
  | .equal => t.setEflags true false false
  | .unordered => t.setEflags true true true

/-- The pops of a compare (R293 to R300). -/
def State.popN (s : State) : Nat → State
  | 0 => s
  | n + 1 => s.pop.popN n

/-- A compare that reports in the status word: none of its writes on Stop (R291, R292). -/
def State.compareCC (s : State) (b : Operand) (kind : CompareKind) (pops : Nat) : State :=
  let c := compareOps (s.stOperand 0#3) b kind true s
  match c.relation with
  | none => c.state
  | some r => (c.state.setCC r).popN pops

/-- A compare that reports in EFLAGS (R303). -/
def State.compareEflags (s : State) (b : Operand) (kind : CompareKind) (pops : Nat) : State :=
  let c := compareOps (s.stOperand 0#3) b kind s.params.fcomiSignalsD s
  match c.relation with
  | none => c.state
  | some r => (c.state.setRelationFlags r).popN pops

/-- A compare with a single-real. -/
def compareSingle (i : Instr) (m : MemForm) (pops : Nat) (s : State) : Result :=
  s.nonControlMem i m 4 fun a s => .ok (s.compareCC (s.single a) .ordered pops)

/-- A compare with a double-real. -/
def compareDouble (i : Instr) (m : MemForm) (pops : Nat) (s : State) : Result :=
  s.nonControlMem i m 8 fun a s => .ok (s.compareCC (s.double a) .ordered pops)

/-- A compare with an integer. -/
def compareInt (i : Instr) (m : MemForm) (bytes pops : Nat) (s : State) : Result :=
  s.nonControlMem i m bytes fun a s => .ok (s.compareCC (s.int a bytes) .ordered pops)

/-- A compare with ST(j). -/
def compareReg (i : Instr) (j : StIdx) (kind : CompareKind) (pops : Nat) (s : State) : Result :=
  s.nonControl i fun s => .ok (s.compareCC (s.stOperand j) kind pops)

/-- A compare with ST(j) that sets EFLAGS; an encoding of no instruction where the processor has none (R116, U12). -/
def compareRegEflags (i : Instr) (j : StIdx) (kind : CompareKind) (pops : Nat) (s : State) : Result :=
  if s.params.hasFcomi then s.nonControl i fun s => .ok (s.compareEflags (s.stOperand j) kind pops)
  else .refused .reservedEncoding

/-- R293: FCOM m32real. -/
def execFcomM32 (p : List Prefix) (m : MemForm) (s : State) : Result := compareSingle (.fcomM32 p m) m 0 s

/-- R293: FCOM m64real. -/
def execFcomM64 (p : List Prefix) (m : MemForm) (s : State) : Result := compareDouble (.fcomM64 p m) m 0 s

/-- R293: FCOM ST(i). -/
def execFcomSti (p : List Prefix) (i : StIdx) (s : State) : Result := compareReg (.fcomSti p i) i .ordered 0 s

/-- R294: FCOMP m32real. -/
def execFcompM32 (p : List Prefix) (m : MemForm) (s : State) : Result := compareSingle (.fcompM32 p m) m 1 s

/-- R294: FCOMP m64real. -/
def execFcompM64 (p : List Prefix) (m : MemForm) (s : State) : Result := compareDouble (.fcompM64 p m) m 1 s

/-- R294: FCOMP ST(i). -/
def execFcompSti (p : List Prefix) (i : StIdx) (s : State) : Result := compareReg (.fcompSti p i) i .ordered 1 s

/-- R295: FCOMPP. -/
def execFcompp (p : List Prefix) (s : State) : Result := compareReg (.fcompp p) 1#3 .ordered 2 s

/-- R296: FUCOM ST(i). -/
def execFucom (p : List Prefix) (i : StIdx) (s : State) : Result := compareReg (.fucom p i) i .unordered 0 s

/-- R297: FUCOMP ST(i). -/
def execFucomp (p : List Prefix) (i : StIdx) (s : State) : Result := compareReg (.fucomp p i) i .unordered 1 s

/-- R298: FUCOMPP. -/
def execFucompp (p : List Prefix) (s : State) : Result := compareReg (.fucompp p) 1#3 .unordered 2 s

/-- R299: FICOM m16int. -/
def execFicomM16i (p : List Prefix) (m : MemForm) (s : State) : Result := compareInt (.ficomM16i p m) m 2 0 s

/-- R299: FICOM m32int. -/
def execFicomM32i (p : List Prefix) (m : MemForm) (s : State) : Result := compareInt (.ficomM32i p m) m 4 0 s

/-- R300: FICOMP m16int. -/
def execFicompM16i (p : List Prefix) (m : MemForm) (s : State) : Result := compareInt (.ficompM16i p m) m 2 1 s

/-- R300: FICOMP m32int. -/
def execFicompM32i (p : List Prefix) (m : MemForm) (s : State) : Result := compareInt (.ficompM32i p m) m 4 1 s

/-- R301: FTST compares with +0.0. -/
def execFtst (p : List Prefix) (s : State) : Result :=
  s.nonControl (.ftst p) fun s =>
    .ok (s.compareCC { val := zero false, empty := false, denormal := false } .ordered 0)

/-- The codes C3, C2, C0 of R302. -/
def State.examine (s : State) : State :=
  let v := s.st 0#3
  let t := s.setC1 (signOf v)
  if s.stEmpty 0#3 then t.setCodes true false true
  else
    match classOf v with
    | .unnormal => t.setCodes false false false
    | .pseudoInfinity => t.setCodes false false false
    | .pseudoNan => t.setCodes false false false
    | .snan => t.setCodes false false true
    | .qnan => t.setCodes false false true
    | .normal => t.setCodes false true false
    | .infinity => t.setCodes false true true
    | .zero => t.setCodes true false false
    | .denormal => t.setCodes true true false
    | .pseudoDenormal => t.setCodes true true false

/-- R302: FXAM. -/
def execFxam (p : List Prefix) (s : State) : Result := s.nonControl (.fxam p) fun s => .ok s.examine

/-- R304: FCOMI. -/
def execFcomi (p : List Prefix) (i : StIdx) (s : State) : Result := compareRegEflags (.fcomi p i) i .ordered 0 s

/-- R305: FCOMIP. -/
def execFcomip (p : List Prefix) (i : StIdx) (s : State) : Result := compareRegEflags (.fcomip p i) i .ordered 1 s

/-- R306: FUCOMI. -/
def execFucomi (p : List Prefix) (i : StIdx) (s : State) : Result := compareRegEflags (.fucomi p i) i .unordered 0 s

/-- R307: FUCOMIP. -/
def execFucomip (p : List Prefix) (i : StIdx) (s : State) : Result := compareRegEflags (.fucomip p i) i .unordered 1 s

end Sys2Proof.Machine
end

