-- ==== Sys2Proof/Machine/DataTransfer.lean ====
section
/-! DEFINITION. Data transfer (spec/41_data_transfer.md). -/

namespace Sys2Proof.Machine

/-! ### Loads (R201 to R203, R209, R220) -/

/-- A push after the overflow check of R183; C1 is 0 without a stack fault. -/
def State.loadPush (s : State) (v : Ext) : State :=
  if s.pushOverflows then s.respond .isOver State.overflowPush else (s.setC1 false).push v

/-- The pushed value of R201: an SNaN is quieted when masked, a denormal reported. -/
def State.loadReal (s : State) (x : Operand) : State :=
  if s.pushOverflows then s.respond .isOver State.overflowPush
  else if classOf x.val == .snan then s.respond .ia fun t => (t.setC1 false).push (quiet x.val)
  else if x.denormal then s.respond .d fun t => (t.setC1 false).push x.val
  else (s.setC1 false).push x.val

/-- R201: FLD m32real. -/
def execFldM32 (p : List Prefix) (m : MemForm) (s : State) : Result :=
  s.nonControlMem (.fldM32 p m) m 4 fun a s => .ok (s.freeCodes.loadReal (s.single a))

/-- R201: FLD m64real. -/
def execFldM64 (p : List Prefix) (m : MemForm) (s : State) : Result :=
  s.nonControlMem (.fldM64 p m) m 8 fun a s => .ok (s.freeCodes.loadReal (s.double a))

/-- R202: FLD m80real. -/
def execFldM80 (p : List Prefix) (m : MemForm) (s : State) : Result :=
  s.nonControlMem (.fldM80 p m) m 10 fun a s => .ok (s.freeCodes.loadPush (BitVec.ofNat 80 (s.read a 10)))

/-- The value FLD ST(i) pushes and the state it pushes it on, after a masked underflow where there is one (R203). -/
def State.loadSt (s : State) (i : StIdx) : State :=
  if s.stEmpty i then s.respond .isUnder fun t => t.loadPush realIndefinite else s.loadPush (s.st i)

/-- R203: FLD ST(i). -/
def execFldSti (p : List Prefix) (i : StIdx) (s : State) : Result :=
  s.nonControl (.fldSti p i) fun s => .ok (s.freeCodes.loadSt i)

/-- R209: FILD m16int. -/
def execFildM16i (p : List Prefix) (m : MemForm) (s : State) : Result :=
  s.nonControlMem (.fildM16i p m) m 2 fun a s => .ok (s.freeCodes.loadPush (s.int a 2).val)

/-- R209: FILD m32int. -/
def execFildM32i (p : List Prefix) (m : MemForm) (s : State) : Result :=
  s.nonControlMem (.fildM32i p m) m 4 fun a s => .ok (s.freeCodes.loadPush (s.int a 4).val)

/-- R209: FILD m64int. -/
def execFildM64i (p : List Prefix) (m : MemForm) (s : State) : Result :=
  s.nonControlMem (.fildM64i p m) m 8 fun a s => .ok (s.freeCodes.loadPush (s.int a 8).val)

/-- R220: FBLD; an operand with a digit above 9 loads an undefined value (U5). -/
def execFbld (p : List Prefix) (m : MemForm) (s : State) : Result :=
  s.nonControlMem (.fbld p m) m 10 fun a s =>
    .ok (s.freeCodes.loadPush ((extOfBcd (BitVec.ofNat 80 (s.read a 10))).getD (Config.freeExt s.draws)))

/-! ### Stores to memory (R204, R206, R207, R210, R211, R221) -/

/-- The bytes of a store and the pop. -/
structure MemDest where
  addr : Nat
  bytes : Nat
  pop : Bool
deriving DecidableEq, Repr

/-- The value stored, then the pop. -/
def State.storeDest (s : State) (d : MemDest) (v : Nat) : State :=
  if d.pop then (s.store d.addr d.bytes v).pop else s.store d.addr d.bytes v

/-- The conversion of R167 and the store of R204 and R206, in the format `f` encoded by `enc`. -/
def State.storeReal (s : State) (f : Fmt) (enc : RealValue → Nat) (d : MemDest) : State :=
  let v := s.st 0#3
  let put := fun (t : State) (x : RealValue) => t.storeDest d (enc x)
  let finite := fun (t : State) =>
    let x := valOf v
    let r := deliver f f.prec true (exactNum x) t
    match r.2 with
    | none => r.1
    | some y => put r.1 y
  if s.stEmpty 0#3 then s.respond .isUnder fun t => put t .indefinite
  else
    match classOf v with
    | .unnormal => s.respond .ia fun t => put (t.setC1 false) .indefinite
    | .pseudoInfinity => s.respond .ia fun t => put (t.setC1 false) .indefinite
    | .pseudoNan => s.respond .ia fun t => put (t.setC1 false) .indefinite
    | .snan => s.respond .ia fun t => put (t.setC1 false) (.nan (signOf v) (sigOf (quiet v)))
    | .qnan => put (s.setC1 false) (.nan (signOf v) (sigOf v))
    | .infinity => put (s.setC1 false) (.infinite (signOf v))
    | .zero => put (s.setC1 false) (.finite (signOf v) 0 0)
    | .denormal => s.respond .d finite
    | .pseudoDenormal => s.respond .d finite
    | .normal => finite s

/-- R204, R206: a store of a single-real. -/
def storeSingle (i : Instr) (m : MemForm) (pop : Bool) (s : State) : Result :=
  s.nonControlMem i m 4 fun a s =>
    .ok (s.freeCodes.storeReal fmtSingle (fun x => (singleOf x).toNat) { addr := a, bytes := 4, pop := pop })

/-- R204, R206: a store of a double-real. -/
def storeDouble (i : Instr) (m : MemForm) (pop : Bool) (s : State) : Result :=
  s.nonControlMem i m 8 fun a s =>
    .ok (s.freeCodes.storeReal fmtDouble (fun x => (doubleOf x).toNat) { addr := a, bytes := 8, pop := pop })

/-- R204: FST m32real. -/
def execFstM32 (p : List Prefix) (m : MemForm) (s : State) : Result := storeSingle (.fstM32 p m) m false s

/-- R204: FST m64real. -/
def execFstM64 (p : List Prefix) (m : MemForm) (s : State) : Result := storeDouble (.fstM64 p m) m false s

/-- R206: FSTP m32real. -/
def execFstpM32 (p : List Prefix) (m : MemForm) (s : State) : Result := storeSingle (.fstpM32 p m) m true s

/-- R206: FSTP m64real. -/
def execFstpM64 (p : List Prefix) (m : MemForm) (s : State) : Result := storeDouble (.fstpM64 p m) m true s

/-- R207: FSTP m80real. -/
def execFstpM80 (p : List Prefix) (m : MemForm) (s : State) : Result :=
  s.nonControlMem (.fstpM80 p m) m 10 fun a s =>
    let s := s.freeCodes
    let d : MemDest := { addr := a, bytes := 10, pop := true }
    .ok (if s.stEmpty 0#3 then s.respond .isUnder fun t => t.storeDest d realIndefinite.toNat
      else (s.setC1 false).storeDest d (s.st 0#3).toNat)

/-- The rounding of R169 and R170: the invalid classes and results out of range give `indefinite`, a number in range is
encoded by `enc`, and -0.0 keeps its sign. -/
def State.storeRounded (s : State) (inRange : Int → Bool) (enc : Bool → Nat → Nat) (indefinite : Nat) (d : MemDest) :
    State :=
  let v := s.st 0#3
  let bad := s.respond .ia fun t => (t.setC1 false).storeDest d indefinite
  let finite :=
    let x := valOf v
    let r := roundInt x (rcOf s.cw)
    if inRange (if x.neg then -(r.n : Int) else r.n) then
      (s.reportInexact r.inexact r.up).storeDest d (enc x.neg r.n)
    else bad
  if s.stEmpty 0#3 then s.respond .isUnder fun t => t.storeDest d indefinite
  else
    match classOf v with
    | .unnormal => bad
    | .pseudoInfinity => bad
    | .pseudoNan => bad
    | .snan => bad
    | .qnan => bad
    | .infinity => bad
    | .zero => (s.setC1 false).storeDest d (enc (signOf v) 0)
    | .denormal => finite
    | .pseudoDenormal => finite
    | .normal => finite

/-- A value of `n` bits in two's complement (R169). -/
def twosComplement (n : Nat) (neg : Bool) (v : Nat) : Nat := (BitVec.ofInt n (if neg then -(v : Int) else v)).toNat

/-- The range of an integer of `n` bits (R169). -/
def intInRange (n : Nat) (v : Int) : Bool := decide (-(2 ^ (n - 1) : Nat) ≤ v ∧ v ≤ (2 ^ (n - 1) : Nat) - 1)

/-- R169, R210, R211: a store of an integer of `bytes` bytes. -/
def storeInt (i : Instr) (m : MemForm) (bytes : Nat) (pop : Bool) (s : State) : Result :=
  s.nonControlMem i m bytes fun a s =>
    .ok (s.freeCodes.storeRounded (intInRange (8 * bytes)) (twosComplement (8 * bytes))
      (intIndefinite (8 * bytes)).toNat { addr := a, bytes := bytes, pop := pop })

/-- R210: FIST m16int. -/
def execFistM16i (p : List Prefix) (m : MemForm) (s : State) : Result := storeInt (.fistM16i p m) m 2 false s

/-- R210: FIST m32int. -/
def execFistM32i (p : List Prefix) (m : MemForm) (s : State) : Result := storeInt (.fistM32i p m) m 4 false s

/-- R211: FISTP m16int. -/
def execFistpM16i (p : List Prefix) (m : MemForm) (s : State) : Result := storeInt (.fistpM16i p m) m 2 true s

/-- R211: FISTP m32int. -/
def execFistpM32i (p : List Prefix) (m : MemForm) (s : State) : Result := storeInt (.fistpM32i p m) m 4 true s

/-- R211: FISTP m64int. -/
def execFistpM64i (p : List Prefix) (m : MemForm) (s : State) : Result := storeInt (.fistpM64i p m) m 8 true s

/-- The range of a packed decimal (R170). -/
def bcdInRange (v : Int) : Bool := decide (v.natAbs ≤ 10 ^ 18 - 1)

/-- R221: FBSTP, by the conversion of R170. -/
def execFbstp (p : List Prefix) (m : MemForm) (s : State) : Result :=
  s.nonControlMem (.fbstp p m) m 10 fun a s =>
    .ok (s.freeCodes.storeRounded bcdInRange (fun neg n => (packedDecimal neg n).toNat)
      (packedIndefinite (Config.freeBcd s.draws)).toNat { addr := a, bytes := 10, pop := true })

/-! ### Register copies and the exchange (R205, R208, R222) -/

/-- ST(0) copied to ST(i), then the pop of the popping form (R205, R208). -/
def State.copySt (s : State) (i : StIdx) (pop : Bool) : State :=
  let fin := fun (t : State) => if pop then t.pop else t
  if s.stEmpty 0#3 then s.respond .isUnder fun t => fin (t.setSt i realIndefinite)
  else fin ((s.setC1 false).setSt i (s.st 0#3))

/-- R205: FST ST(i). -/
def execFstSti (p : List Prefix) (i : StIdx) (s : State) : Result :=
  s.nonControl (.fstSti p i) fun s => .ok (s.freeCodes.copySt i false)

/-- R208: FSTP ST(i). -/
def execFstpSti (p : List Prefix) (i : StIdx) (s : State) : Result :=
  s.nonControl (.fstpSti p i) fun s => .ok (s.freeCodes.copySt i true)

/-- An empty register loaded with the real indefinite (R222). -/
def State.fillEmpty (s : State) (i : StIdx) : State := if s.stEmpty i then s.setSt i realIndefinite else s

/-- ST(0) and ST(i) exchanged, each with the tag of its value (R222). -/
def State.exchange (s : State) (i : StIdx) : State := (s.setSt 0#3 (s.st i)).setSt i (s.st 0#3)

/-- R222: FXCH ST(i). -/
def execFxch (p : List Prefix) (i : StIdx) (s : State) : Result :=
  s.nonControl (.fxch p i) fun s =>
    let s := s.freeCodes
    .ok (if s.stEmpty 0#3 || s.stEmpty i then
        s.respond .isUnder fun t => ((t.fillEmpty 0#3).fillEmpty i).exchange i
      else (s.setC1 false).exchange i)

/-! ### Conditional moves (R212 to R219, R223) -/

/-- FCMOV of R223 with its condition; an encoding of no instruction where the processor has none (R116, U12). -/
def cmov (ins : Instr) (cond : Eflags → Bool) (i : StIdx) (s : State) : Result :=
  if s.params.hasFcmov then
    s.nonControl ins fun s =>
      let s := s.freeCodes
      .ok (if s.stEmpty i then
          s.respond .isUnder fun t => if cond t.eflags then t.setSt 0#3 realIndefinite else t
        else if cond s.eflags then (s.setC1 false).setSt 0#3 (s.st i) else s.setC1 false)
  else .refused .reservedEncoding

/-- R212: CF = 1. -/
def execFcmovb (p : List Prefix) (i : StIdx) (s : State) : Result := cmov (.fcmovb p i) (fun f => f.cf) i s

/-- R213: CF = 0. -/
def execFcmovnb (p : List Prefix) (i : StIdx) (s : State) : Result := cmov (.fcmovnb p i) (fun f => !f.cf) i s

/-- R214: ZF = 1. -/
def execFcmove (p : List Prefix) (i : StIdx) (s : State) : Result := cmov (.fcmove p i) (fun f => f.zf) i s

/-- R215: ZF = 0. -/
def execFcmovne (p : List Prefix) (i : StIdx) (s : State) : Result := cmov (.fcmovne p i) (fun f => !f.zf) i s

/-- R216: CF or ZF = 1. -/
def execFcmovbe (p : List Prefix) (i : StIdx) (s : State) : Result := cmov (.fcmovbe p i) (fun f => f.cf || f.zf) i s

/-- R217: CF and ZF = 0. -/
def execFcmovnbe (p : List Prefix) (i : StIdx) (s : State) : Result :=
  cmov (.fcmovnbe p i) (fun f => !f.cf && !f.zf) i s

/-- R218: PF = 1. -/
def execFcmovu (p : List Prefix) (i : StIdx) (s : State) : Result := cmov (.fcmovu p i) (fun f => f.pf) i s

/-- R219: PF = 0. -/
def execFcmovnu (p : List Prefix) (i : StIdx) (s : State) : Result := cmov (.fcmovnu p i) (fun f => !f.pf) i s

end Sys2Proof.Machine
end

