-- ==== Sys2Proof/Machine/Constants.lean ====
section
/-! DEFINITION. The load constant instructions (spec/42_load_constants.md). -/

namespace Sys2Proof.Machine

/-- LoadConstant of R230. -/
def loadConstant (i : Instr) (k : RoundMode → Ext) (s : State) : Result :=
  s.nonControl i fun s => .ok (s.freeCodes.loadPush (k (rcOf s.cw)))

/-- A positive constant by its two neighbours: `near` for RC = 00B, `low` for RC = 01B and 11B, `high` for RC = 10B
(R230). -/
def constantOf (near low high : Ext) : RoundMode → Ext
  | .nearest => near
  | .down => low
  | .up => high
  | .zero => low

/-- R231: +0.0. -/
def execFldz (p : List Prefix) (s : State) : Result := loadConstant (.fldz p) (fun _ => zero false) s

/-- R232: +1.0. -/
def execFld1 (p : List Prefix) (s : State) : Result := loadConstant (.fld1 p) (fun _ => one) s

/-- R233: pi. -/
def execFldpi (p : List Prefix) (s : State) : Result :=
  loadConstant (.fldpi p)
    (constantOf 0x4000C90FDAA22168C235#80 0x4000C90FDAA22168C234#80 0x4000C90FDAA22168C235#80) s

/-- R234: log2 10. -/
def execFldl2t (p : List Prefix) (s : State) : Result :=
  loadConstant (.fldl2t p)
    (constantOf 0x4000D49A784BCD1B8AFE#80 0x4000D49A784BCD1B8AFE#80 0x4000D49A784BCD1B8AFF#80) s

/-- R235: log2 e. -/
def execFldl2e (p : List Prefix) (s : State) : Result :=
  loadConstant (.fldl2e p)
    (constantOf 0x3FFFB8AA3B295C17F0BC#80 0x3FFFB8AA3B295C17F0BB#80 0x3FFFB8AA3B295C17F0BC#80) s

/-- R236: log10 2. -/
def execFldlg2 (p : List Prefix) (s : State) : Result :=
  loadConstant (.fldlg2 p)
    (constantOf 0x3FFD9A209A84FBCFF799#80 0x3FFD9A209A84FBCFF798#80 0x3FFD9A209A84FBCFF799#80) s

/-- R237: loge 2. -/
def execFldln2 (p : List Prefix) (s : State) : Result :=
  loadConstant (.fldln2 p)
    (constantOf 0x3FFEB17217F7D1CF79AC#80 0x3FFEB17217F7D1CF79AB#80 0x3FFEB17217F7D1CF79AC#80) s

end Sys2Proof.Machine
end

