-- ==== Sys2Proof/Machine/Control.lean ====
section
/-! DEFINITION. FPU control instructions, the environment and state images (spec/46_control.md). -/

namespace Sys2Proof.Machine

/-! ### The tag word (R41, R42) -/

/-- The code of a tag (R41). -/
def Tag.code : Tag → BitVec 2
  | .valid => 0
  | .zero => 1
  | .special => 2
  | .empty => 3

/-- The tag of a register in a loaded image: empty, or the tag of the register's value (R42). -/
def loadTag (c : BitVec 2) (v : Ext) : Tag := if c = 3#2 then .empty else tagOf v

/-- The 16 bits of the tag word, register 7 most significant (R41). -/
def tagWord (t : Vector Tag 8) : Word16 :=
  (t.get 7).code ++ (t.get 6).code ++ (t.get 5).code ++ (t.get 4).code ++ (t.get 3).code ++ (t.get 2).code ++
    (t.get 1).code ++ (t.get 0).code

/-- LoadTags of R42. -/
def loadTags (image : Word16) (regs : Vector Ext 8) : Vector Tag 8 :=
  Vector.ofFn fun k => loadTag (image.extractLsb' (2 * k.val) 2) (regs.get k)

/-- The state with all tags written. -/
def State.withTags (s : State) (t : Vector Tag 8) : State := { s with tags := t }

/-- The state with all data registers written; the tags are the caller's to load. -/
def State.withRegs (s : State) (r : Vector Ext 8) : State := { s with regs := r }

/-! ### Image formats (R366) -/

/-- The four formats of the environment image. -/
inductive ImageFormat where
  | protected32
  | real32
  | protected16
  | real16
deriving DecidableEq, Repr

/-- The format of the mode and operand size in effect (R366). -/
def State.imageFormat (s : State) (p : List Prefix) : ImageFormat :=
  match s.mode, oper32 s.code32 p with
  | .protectedMode, true => .protected32
  | .protectedMode, false => .protected16
  | .realAddress, true => .real32
  | .realAddress, false => .real16
  | .virtual8086, true => .real32
  | .virtual8086, false => .real16
  | .smm, true => .real32
  | .smm, false => .real16

/-- The bytes of the environment image. -/
def ImageFormat.size : ImageFormat → Nat
  | .protected32 => 28
  | .real32 => 28
  | .protected16 => 14
  | .real16 => 14

/-- What an environment image carries (R366): the opcode is none where the image has no place for it. -/
structure Env where
  cw : Word16
  sw : Word16
  tw : Word16
  fip : FarPtr
  fdp : FarPtr
  fop : Option (BitVec 11)
deriving DecidableEq, Repr

/-- The linear address of a pointer (R378, D28). -/
def linear (p : FarPtr) : Word32 := ((p.extractLsb' 32 16).zeroExtend 32 <<< 4) + p.extractLsb' 0 32

/-- The reserved word `k` of an image (U10). -/
def reservedWord (draws k : Nat) : Word16 := (Config.freeReserved draws).extractLsb' (16 * k) 16

/-- The words of an image, the first at the lowest address (R377 to R380). -/
def envWords (f : ImageFormat) (e : Env) (draws : Nat) : List Word16 :=
  let r := reservedWord draws
  let fop := e.fop.getD 0#11
  let ip := linear e.fip
  let dp := linear e.fdp
  match f with
  | .protected32 =>
    [e.cw, r 0, e.sw, r 1, e.tw, r 2, e.fip.extractLsb' 0 16, e.fip.extractLsb' 16 16, e.fip.extractLsb' 32 16,
      0#5 ++ fop, e.fdp.extractLsb' 0 16, e.fdp.extractLsb' 16 16, e.fdp.extractLsb' 32 16, r 3]
  | .real32 =>
    [e.cw, r 0, e.sw, r 1, e.tw, r 2, ip.extractLsb' 0 16, r 3, ip.extractLsb' 16 4 ++ 0#1 ++ fop,
      0#4 ++ ip.extractLsb' 20 12, dp.extractLsb' 0 16, r 4, dp.extractLsb' 16 4 ++ 0#12,
      0#4 ++ dp.extractLsb' 20 12]
  | .protected16 =>
    [e.cw, e.sw, e.tw, e.fip.extractLsb' 0 16, e.fip.extractLsb' 32 16, e.fdp.extractLsb' 0 16,
      e.fdp.extractLsb' 32 16]
  | .real16 =>
    [e.cw, e.sw, e.tw, ip.extractLsb' 0 16, ip.extractLsb' 16 4 ++ 0#1 ++ fop, dp.extractLsb' 0 16,
      dp.extractLsb' 16 4 ++ 0#12]

/-- The number whose little-endian 16-bit words these are (R72). -/
def wordsToNat : List Word16 → Nat
  | [] => 0
  | w :: ws => w.toNat + 65536 * wordsToNat ws

/-- Word `k` of an image in memory. -/
def State.word (s : State) (a k : Nat) : Word16 := BitVec.ofNat 16 (s.read (a + 2 * k) 2)

/-- The environment image in memory (R377 to R380; D28 for the pointers of the real-address and 16-bit formats). -/
def State.readEnv (s : State) (f : ImageFormat) (a : Nat) : Env :=
  let w := s.word a
  match f with
  | .protected32 =>
    { cw := w 0, sw := w 2, tw := w 4, fip := w 8 ++ w 7 ++ w 6, fdp := w 12 ++ w 11 ++ w 10,
      fop := some ((w 9).extractLsb' 0 11) }
  | .real32 =>
    { cw := w 0, sw := w 2, tw := w 4,
      fip := 0#16 ++ ((w 9).extractLsb' 0 12 ++ (w 8).extractLsb' 12 4 ++ w 6),
      fdp := 0#16 ++ ((w 13).extractLsb' 0 12 ++ (w 12).extractLsb' 12 4 ++ w 10),
      fop := some ((w 8).extractLsb' 0 11) }
  | .protected16 =>
    { cw := w 0, sw := w 1, tw := w 2, fip := w 4 ++ 0#16 ++ w 3, fdp := w 6 ++ 0#16 ++ w 5, fop := none }
  | .real16 =>
    { cw := w 0, sw := w 1, tw := w 2, fip := 0#16 ++ (0#12 ++ (w 4).extractLsb' 12 4 ++ w 3),
      fdp := 0#16 ++ (0#12 ++ (w 6).extractLsb' 12 4 ++ w 5), fop := some ((w 4).extractLsb' 0 11) }

/-- The environment of the FPU registers as a store shows it. -/
def State.env (s : State) : Env :=
  { cw := cwImage s.cw s.draws, sw := s.sw.toBits, tw := tagWord s.tags, fip := s.fip, fdp := s.fdp, fop := some s.fop }

/-- The environment image stored (R363). -/
def State.storeEnv (s : State) (f : ImageFormat) (a : Nat) : State :=
  s.store a f.size (wordsToNat (envWords f s.env s.draws))

/-- The eight registers in stack order, ten bytes each, as a number (R381). -/
def State.stackImage (s : State) : Nat → Nat
  | 0 => 0
  | n + 1 => (s.st (BitVec.ofNat 3 (7 - n))).toNat + 2 ^ 80 * s.stackImage n

/-- CW, SW and the pointers loaded; ES and B are not copied (R362, D10). -/
def State.loadEnv (s : State) (e : Env) : State :=
  (((s.withCw e.cw).withSw (StatusWord.ofBits e.sw)).withPointers e.fip e.fdp (e.fop.getD s.fop)).withTags
    (loadTags e.tw s.regs)

/-- The registers of a state image, in stack order from its own TOP (R365, R381). -/
def State.readStack (s : State) (top : BitVec 3) (a : Nat) : Vector Ext 8 :=
  Vector.ofFn fun k => BitVec.ofNat 80 (s.read (a + 10 * (BitVec.ofFin k - top).toNat) 10)

/-! ### The primary operations -/

/-- The operation of FNINIT (R352; D4 for TOP, FOP and the data registers). -/
def State.initFpu (s : State) : State :=
  ((((s.withCw cwInit).withSw (StatusWord.ofBits 0#16)).withTags (Vector.replicate 8 .empty)).withPointers
    0#48 0#48 0#11).withFerr false

/-- The operation of FNCLEX (R360). -/
def State.clearExceptions (s : State) : State :=
  (((s.withSw { s.sw with
    ie := false, de := false, ze := false, oe := false, ue := false, pe := false, sf := false, es := false,
    b := false }).withFerr false).freeCodes).freeC1

/-- The six mask bits set and nothing pending (R363). -/
def State.maskAll (s : State) : State := (s.withCw (s.cw ||| 0x003F#16)).refreshEs

/-- AX written; the upper half of EAX keeps its bits (R358). -/
def State.setAx (s : State) (v : Word16) : State :=
  { s with gprs := { s.gprs with eax := s.gprs.eax.extractLsb' 16 16 ++ v } }

/-- FNINIT after its wait, if any. -/
def fninitBody (i : Instr) (s : State) : Result := s.control i State.initFpu

/-- FNCLEX after its wait, if any. -/
def fnclexBody (i : Instr) (s : State) : Result := s.control i State.clearExceptions

/-- FNSTCW after its wait, if any (R355). -/
def fnstcwBody (i : Instr) (m : MemForm) (s : State) : Result :=
  s.controlMem i m 2 fun a s => s.store a 2 (cwImage s.cw s.draws).toNat

/-- FNSTSW m16 after its wait, if any (R357). -/
def fnstswBody (i : Instr) (m : MemForm) (s : State) : Result :=
  s.controlMem i m 2 fun a s => s.store a 2 s.sw.toBits.toNat

/-- FNSTSW AX after its wait, if any (R358). -/
def fnstswAxBody (i : Instr) (s : State) : Result := s.control i fun s => s.setAx s.sw.toBits

/-- FNSTENV after its wait, if any (R363). -/
def fnstenvBody (i : Instr) (m : MemForm) (s : State) : Result :=
  let f := s.imageFormat i.prefixes
  s.controlMem i m f.size fun a s => (s.storeEnv f a).maskAll

/-- FNSAVE after its wait, if any (R367). -/
def fnsaveBody (i : Instr) (m : MemForm) (s : State) : Result :=
  let f := s.imageFormat i.prefixes
  s.controlMem i m (f.size + 80) fun a s =>
    ((s.storeEnv f a).store (a + f.size) 80 (s.stackImage 8)).initFpu

/-! ### The instructions -/

/-- R352: FNINIT. -/
def execFninit (p : List Prefix) (s : State) : Result := fninitBody (.fninit p) s

/-- R353: FINIT. -/
def execFinit (p : List Prefix) (s : State) : Result := s.waiting (fninitBody (.finit p))

/-- R354: FLDCW; C0 to C3 are undefined. -/
def execFldcw (p : List Prefix) (m : MemForm) (s : State) : Result :=
  s.waiting fun s =>
    s.controlMem (.fldcw p m) m 2 fun a s => ((s.withCw (s.word a 0)).refreshEs.freeCodes).freeC1

/-- R355: FNSTCW. -/
def execFnstcw (p : List Prefix) (m : MemForm) (s : State) : Result := fnstcwBody (.fnstcw p m) m s

/-- R356: FSTCW. -/
def execFstcw (p : List Prefix) (m : MemForm) (s : State) : Result := s.waiting (fnstcwBody (.fstcw p m) m)

/-- R357: FNSTSW m16. -/
def execFnstswM16 (p : List Prefix) (m : MemForm) (s : State) : Result := fnstswBody (.fnstswM16 p m) m s

/-- R358: FNSTSW AX. -/
def execFnstswAx (p : List Prefix) (s : State) : Result := fnstswAxBody (.fnstswAx p) s

/-- R359: FSTSW m16. -/
def execFstswM16 (p : List Prefix) (m : MemForm) (s : State) : Result := s.waiting (fnstswBody (.fstswM16 p m) m)

/-- R359: FSTSW AX. -/
def execFstswAx (p : List Prefix) (s : State) : Result := s.waiting (fnstswAxBody (.fstswAx p))

/-- R360: FNCLEX. -/
def execFnclex (p : List Prefix) (s : State) : Result := fnclexBody (.fnclex p) s

/-- R361: FCLEX. -/
def execFclex (p : List Prefix) (s : State) : Result := s.waiting (fnclexBody (.fclex p))

/-- R362: FLDENV. -/
def execFldenv (p : List Prefix) (m : MemForm) (s : State) : Result :=
  s.waiting fun s =>
    let f := s.imageFormat p
    s.controlMem (.fldenv p m) m f.size fun a s => (s.loadEnv (s.readEnv f a)).refreshEs

/-- R363: FNSTENV. -/
def execFnstenv (p : List Prefix) (m : MemForm) (s : State) : Result := fnstenvBody (.fnstenv p m) m s

/-- R364: FSTENV. -/
def execFstenv (p : List Prefix) (m : MemForm) (s : State) : Result := s.waiting (fnstenvBody (.fstenv p m) m)

/-- R365: FRSTOR. -/
def execFrstor (p : List Prefix) (m : MemForm) (s : State) : Result :=
  s.waiting fun s =>
    let f := s.imageFormat p
    s.controlMem (.frstor p m) m (f.size + 80) fun a s =>
      let e := s.readEnv f a
      ((s.withRegs (s.readStack (StatusWord.ofBits e.sw).top (a + f.size))).loadEnv e).refreshEs

/-- R367: FNSAVE. -/
def execFnsave (p : List Prefix) (m : MemForm) (s : State) : Result := fnsaveBody (.fnsave p m) m s

/-- R368: FSAVE. -/
def execFsave (p : List Prefix) (m : MemForm) (s : State) : Result := s.waiting (fnsaveBody (.fsave p m) m)

/-- R369: FINCSTP. -/
def execFincstp (p : List Prefix) (s : State) : Result :=
  s.nonControl (.fincstp p) fun s => .ok ((s.freeCodes.setC1 false).withTop (s.sw.top + 1#3))

/-- R370: FDECSTP. -/
def execFdecstp (p : List Prefix) (s : State) : Result :=
  s.nonControl (.fdecstp p) fun s => .ok ((s.freeCodes.setC1 false).withTop (s.sw.top - 1#3))

/-- R371: FFREE. -/
def execFfree (p : List Prefix) (i : StIdx) (s : State) : Result :=
  s.nonControl (.ffree p i) fun s => .ok ((s.withTag (s.phys i) .empty).freeCodes).freeC1

/-- R372: FNOP. -/
def execFnop (p : List Prefix) (s : State) : Result := s.nonControl (.fnop p) fun s => .ok s.freeCodes.freeC1

/-- R373: WAIT. -/
def execWait (p : List Prefix) (s : State) : Result := s.waiting fun s => s.control (.wait p) id

/-- R374: FENI, no operation (D27). -/
def execFeni (p : List Prefix) (s : State) : Result := s.control (.feni p) id

/-- R375: FDISI, no operation. -/
def execFdisi (p : List Prefix) (s : State) : Result := s.control (.fdisi p) id

/-- R376: FSETPM, no operation. -/
def execFsetpm (p : List Prefix) (s : State) : Result := s.control (.fsetpm p) id

end Sys2Proof.Machine
end

