-- ==== Sys2Proof/Machine/Reserved.lean ====
section
/-! DEFINITION. The reserved encodings of spec/30_encoding.md R116: the spec gives them no effect and says to refuse them
(spec/93_implementation_defined.md U12). -/

namespace Sys2Proof.Machine

/-- An encoding that names no instruction (R116). -/
def reserved : Result := .refused .reservedEncoding

/-- R116. -/
def execReservedD9m1 (_p : List Prefix) (_m : MemForm) (_s : State) : Result := reserved

/-- R116. -/
def execReservedD9D1 (_p : List Prefix) (_s : State) : Result := reserved

/-- R116. -/
def execReservedD9D2 (_p : List Prefix) (_low : BitVec 1) (_s : State) : Result := reserved

/-- R116. -/
def execReservedD9D4 (_p : List Prefix) (_low : BitVec 2) (_s : State) : Result := reserved

/-- R116. -/
def execReservedD9D8 (_p : List Prefix) (_low : BitVec 3) (_s : State) : Result := reserved

/-- R116. -/
def execReservedD9E2 (_p : List Prefix) (_low : BitVec 1) (_s : State) : Result := reserved

/-- R116. -/
def execReservedD9E6 (_p : List Prefix) (_low : BitVec 1) (_s : State) : Result := reserved

/-- R116. -/
def execReservedD9EF (_p : List Prefix) (_s : State) : Result := reserved

/-- R116. -/
def execReservedDAE0 (_p : List Prefix) (_low : BitVec 3) (_s : State) : Result := reserved

/-- R116. -/
def execReservedDAE8 (_p : List Prefix) (_s : State) : Result := reserved

/-- R116. -/
def execReservedDAEA (_p : List Prefix) (_low : BitVec 1) (_s : State) : Result := reserved

/-- R116. -/
def execReservedDAEC (_p : List Prefix) (_low : BitVec 2) (_s : State) : Result := reserved

/-- R116. -/
def execReservedDAF0 (_p : List Prefix) (_low : BitVec 4) (_s : State) : Result := reserved

/-- R116. -/
def execReservedDBm1 (_p : List Prefix) (_m : MemForm) (_s : State) : Result := reserved

/-- R116. -/
def execReservedDBm4 (_p : List Prefix) (_m : MemForm) (_s : State) : Result := reserved

/-- R116. -/
def execReservedDBm6 (_p : List Prefix) (_m : MemForm) (_s : State) : Result := reserved

/-- R116. -/
def execReservedDBE5 (_p : List Prefix) (_s : State) : Result := reserved

/-- R116. -/
def execReservedDBE6 (_p : List Prefix) (_low : BitVec 1) (_s : State) : Result := reserved

/-- R116. -/
def execReservedDBF8 (_p : List Prefix) (_low : BitVec 3) (_s : State) : Result := reserved

/-- R116. -/
def execReservedDCD0 (_p : List Prefix) (_low : BitVec 4) (_s : State) : Result := reserved

/-- R116. -/
def execReservedDDm1 (_p : List Prefix) (_m : MemForm) (_s : State) : Result := reserved

/-- R116. -/
def execReservedDDm5 (_p : List Prefix) (_m : MemForm) (_s : State) : Result := reserved

/-- R116. -/
def execReservedDDC8 (_p : List Prefix) (_low : BitVec 3) (_s : State) : Result := reserved

/-- R116. -/
def execReservedDDF0 (_p : List Prefix) (_low : BitVec 4) (_s : State) : Result := reserved

/-- R116. -/
def execReservedDED0 (_p : List Prefix) (_low : BitVec 3) (_s : State) : Result := reserved

/-- R116. -/
def execReservedDED8 (_p : List Prefix) (_s : State) : Result := reserved

/-- R116. -/
def execReservedDEDA (_p : List Prefix) (_low : BitVec 1) (_s : State) : Result := reserved

/-- R116. -/
def execReservedDEDC (_p : List Prefix) (_low : BitVec 2) (_s : State) : Result := reserved

/-- R116. -/
def execReservedDFm1 (_p : List Prefix) (_m : MemForm) (_s : State) : Result := reserved

/-- R116. -/
def execReservedDFC0 (_p : List Prefix) (_low : BitVec 5) (_s : State) : Result := reserved

/-- R116. -/
def execReservedDFE1 (_p : List Prefix) (_s : State) : Result := reserved

/-- R116. -/
def execReservedDFE2 (_p : List Prefix) (_low : BitVec 1) (_s : State) : Result := reserved

/-- R116. -/
def execReservedDFE4 (_p : List Prefix) (_low : BitVec 2) (_s : State) : Result := reserved

/-- R116. -/
def execReservedDFF8 (_p : List Prefix) (_low : BitVec 3) (_s : State) : Result := reserved

end Sys2Proof.Machine
end

