-- ==== Sys2Proof/Machine/Numerics.lean ====
section
/-! DEFINITION. NUMERICS (spec/40_formats_numerics.md R168): the functions that the transcendental instructions approximate
(spec/45_transcendental.md R325 to R329) and the constraint of R331. -/

namespace Sys2Proof

/-! ### Values as rational and as real numbers -/

/-- The number `(-1)^neg * n * 2^k`. -/
def Num.toRat (x : Num) : ℚ := (if x.neg then -1 else 1) * x.n * (2 : ℚ) ^ x.k

end Sys2Proof

namespace Sys2Proof.Machine

/-- Val(v) of a finite value as a rational number (R135). -/
def ratOf (v : Ext) : ℚ := (valOf v).toRat

/-- Val(v) as a real number. -/
noncomputable def realOf (v : Ext) : ℝ := (ratOf v : ℝ)

/-- The value of a NUMERICS result. -/
noncomputable def approxReal (a : Approx) : ℝ :=
  (if a.neg then -1 else 1) * ((2 ^ 63 + a.frac.toNat : Nat) : ℝ) * (2 : ℝ) ^ a.exp

/-- A finite non-zero number of the register format. -/
def isFiniteNonzero (v : Ext) : Bool := classOf v == .normal || isDenormal v

/-- The operand value a NUMERICS function is applied to (R168): equal numbers are equal arguments. -/
def argOf (v : Ext) : Num := normNum (valOf v)

/-! ### The functions (R325 to R329) -/

/-- The 66-bit pi of R326 is this integer over 2^64. -/
def pi66 : Nat := 0x3243F6A8885A308D3

/-- PI66 of R326. -/
noncomputable def pi66Real : ℝ := (pi66 : ℝ) / 2 ^ 64

/-- The multiple k of half a PI66 that Reduce of R326 takes away. -/
noncomputable def reduceSteps (x : ℝ) : ℤ := if |x| < pi66Real / 4 then 0 else round (x / (pi66Real / 2))

/-- The reduced argument t of R326. -/
noncomputable def reduced (x : ℝ) : ℝ := x - reduceSteps x * (pi66Real / 2)

/-- f_sin of R326. -/
noncomputable def trueSin (x : ℝ) : ℝ :=
  if reduceSteps x % 4 = 0 then Real.sin (reduced x)
  else if reduceSteps x % 4 = 1 then Real.cos (reduced x)
  else if reduceSteps x % 4 = 2 then -Real.sin (reduced x)
  else -Real.cos (reduced x)

/-- f_cos of R326. -/
noncomputable def trueCos (x : ℝ) : ℝ :=
  if reduceSteps x % 4 = 0 then Real.cos (reduced x)
  else if reduceSteps x % 4 = 1 then -Real.sin (reduced x)
  else if reduceSteps x % 4 = 2 then -Real.cos (reduced x)
  else Real.sin (reduced x)

/-- f_tan of R326. -/
noncomputable def trueTan (x : ℝ) : ℝ :=
  if reduceSteps x % 2 = 0 then Real.tan (reduced x) else -(1 / Real.tan (reduced x))

/-- The angle of the point (x, y) (R325), in [-pi, pi]. -/
noncomputable def trueAtan2 (y x : ℝ) : ℝ := Complex.arg (Complex.mk x y)

/-- y * log2 x (R327). -/
noncomputable def trueYlog2x (y x : ℝ) : ℝ := y * Real.logb 2 x

/-- y * log2 (1 + x) (R328). -/
noncomputable def trueYlog2xp1 (y x : ℝ) : ℝ := y * Real.logb 2 (1 + x)

/-- 2^x - 1 (R329). -/
noncomputable def trueExp2m1 (x : ℝ) : ℝ := (2 : ℝ) ^ x - 1

/-! ### The operands that reach NUMERICS -/

/-- The operands in range of the trigonometric instructions (R321). -/
def InTrigRange (v : Ext) : Prop := isFiniteNonzero v = true ∧ exponentOf (valOf v) < 63

/-- The operands x of FYL2X that have no exact result (R327). -/
def InLogRange (v : Ext) : Prop := isFiniteNonzero v = true ∧ 0 < realOf v ∧ realOf v ≠ 1

/-- XP1_DOMAIN (R7, R328): -1 and the infinities lie outside it, whatever its ends. -/
def inXp1Domain (P : Params) (x : Ext) : Bool :=
  !isInf x && cmpExt x (negate one) == .greater && cmpExt x P.xp1Low != .less && cmpExt x P.xp1High != .greater

/-- The operands x of FYL2XP1 in the supported domain (R328), with what its lower bound says of the real number. -/
def InXp1Range (P : Params) (v : Ext) : Prop := isFiniteNonzero v = true ∧ inXp1Domain P v = true ∧ -1 < realOf v

/-- The operands of F2XM1 within -1 to +1 (R329). -/
def InExpRange (v : Ext) : Prop := isFiniteNonzero v = true ∧ |realOf v| ≤ 1

/-! ### The constraint of R331 -/

/-- The error bound of R331 in units of the last place. -/
def WithinUlps (g : Generation) (rc : RoundMode) (e : ℝ) : Prop :=
  match g with
  | .intel486 => e ≤ 9 / 2
  | .pentium => if rc = .nearest then e < 1 else e < 3 / 2
  | .pentiumPro => if rc = .nearest then e < 1 else e < 3 / 2

/-- `y` is within the bound of R331 of the function value `f`, whose binary exponent is k. -/
def CloseTo (g : Generation) (rc : RoundMode) (f y : ℝ) : Prop :=
  ∀ k : ℤ, (2 : ℝ) ^ k ≤ |f| → |f| < (2 : ℝ) ^ (k + 1) → WithinUlps g rc (|f - y| / (2 : ℝ) ^ (k - 63))

/-- A result that R331 allows for the function value `f`: the bound, and the meaning of the inexact and up bits. -/
structure Accurate (g : Generation) (rc : RoundMode) (f : ℝ) (a : Approx) : Prop where
  close : CloseTo g rc f (approxReal a)
  inexact : a.inexact = true ↔ approxReal a ≠ f
  up : a.up = true ↔ |f| < |approxReal a|

/-- Monotonic in one operand over the operands of `D` (R331). -/
def Monotonic (D : Ext → Prop) (f : ℝ → ℝ) (F : Num → Approx) : Prop :=
  ∀ u v, D u → D v → realOf u ≤ realOf v →
    (MonotoneOn f (Set.Icc (realOf u) (realOf v)) → approxReal (F (argOf u)) ≤ approxReal (F (argOf v))) ∧
      (AntitoneOn f (Set.Icc (realOf u) (realOf v)) → approxReal (F (argOf v)) ≤ approxReal (F (argOf u)))

/-- A function of one operand that R331 allows, for the function `f` on the operands of `D`. -/
structure Allowed1 (g : Generation) (D : Ext → Prop) (f : ℝ → ℝ) (F : Num → RoundMode → Approx) : Prop where
  accurate : ∀ v rc, D v → Accurate g rc (f (realOf v)) (F (argOf v) rc)
  monotonic : ∀ rc, Monotonic D f fun x => F x rc

/-- A function of two operands that R331 allows, for the function `f` on the operands of `D` and `E`. -/
structure Allowed2 (g : Generation) (D E : Ext → Prop) (f : ℝ → ℝ → ℝ) (F : Num → Num → RoundMode → Approx) : Prop where
  accurate : ∀ y x rc, D y → E x → Accurate g rc (f (realOf y) (realOf x)) (F (argOf y) (argOf x) rc)
  monotonic_left : ∀ rc x, E x → Monotonic D (fun y => f y (realOf x)) fun y => F y (argOf x) rc
  monotonic_right : ∀ rc y, D y → Monotonic E (f (realOf y)) fun x => F (argOf y) x rc

/-- What R331 demands of the NUMERICS of a processor. -/
structure NumericsConform (P : Params) (N : Numerics) : Prop where
  sin : Allowed1 P.generation InTrigRange trueSin N.sin
  cos : Allowed1 P.generation InTrigRange trueCos N.cos
  tan : Allowed1 P.generation InTrigRange trueTan N.tan
  atan2 : Allowed2 P.generation (isFiniteNonzero · = true) (isFiniteNonzero · = true) trueAtan2 N.atan2
  ylog2x : Allowed2 P.generation (isFiniteNonzero · = true) InLogRange trueYlog2x N.ylog2x
  ylog2xp1 : Allowed2 P.generation (isFiniteNonzero · = true) (InXp1Range P) trueYlog2xp1 N.ylog2xp1
  exp2m1 : Allowed1 P.generation InExpRange trueExp2m1 N.exp2m1

end Sys2Proof.Machine
end

