-- ==== Sys2Proof/Machine/NumericsChoice.lean ====
section
/-! DEFINITION. NUMERICS of a processor: free within the constraint of R331 (92_eei_decisions.md part B: a record of total
functions constrained by R331). The function values truncated to 64 bits show that the constraint can be met; the model
never uses them as the values. -/

namespace Sys2Proof.Machine

/-! ### Such functions exist: the function value truncated to 64 bits -/

open Classical in
/-- The non-zero number `f` truncated to 64 significant bits. -/
noncomputable def truncated (f : ℝ) : Approx :=
  let k := Int.log 2 |f|
  let a : Approx :=
    { neg := decide (f < 0), frac := BitVec.ofNat 63 (⌊|f| / (2 : ℝ) ^ (k - 63)⌋₊ - 2 ^ 63), exp := k - 63,
      inexact := false, up := false }
  { a with inexact := decide (approxReal a ≠ f) }

theorem scaled_bounds {f : ℝ} (hf : f ≠ 0) :
    2 ^ 63 ≤ ⌊|f| / (2 : ℝ) ^ (Int.log 2 |f| - 63)⌋₊ ∧ ⌊|f| / (2 : ℝ) ^ (Int.log 2 |f| - 63)⌋₊ < 2 ^ 64 := by
  have h0 : 0 < |f| := abs_pos.mpr hf
  have lo := Int.zpow_log_le_self (b := 2) (by norm_num) h0
  have hi := Int.lt_zpow_succ_log_self (b := 2) (by norm_num) |f|
  have e : (2 : ℝ) ^ Int.log 2 |f| = 2 ^ (Int.log 2 |f| - 63) * 2 ^ 63 := by
    rw [← zpow_natCast, ← zpow_add₀ (by norm_num)]; congr 1; norm_num
  have p : (0 : ℝ) < 2 ^ (Int.log 2 |f| - 63) := by positivity
  push_cast at lo hi
  rw [zpow_add₀ (by norm_num), zpow_one] at hi
  rw [e] at lo hi
  constructor
  · apply Nat.le_floor
    rw [le_div_iff₀ p]; push_cast; linarith
  · rw [Nat.floor_lt (by positivity), div_lt_iff₀ p]; push_cast; linarith

/-- The magnitude of a truncated value: a multiple of its last place, at most `|f|` and less than one place below. -/
theorem truncated_value {f : ℝ} (hf : f ≠ 0) :
    approxReal (truncated f) =
      (if f < 0 then -1 else 1) * ⌊|f| / (2 : ℝ) ^ (Int.log 2 |f| - 63)⌋₊ * (2 : ℝ) ^ (Int.log 2 |f| - 63) := by
  obtain ⟨lo, hi⟩ := scaled_bounds hf
  have e : 2 ^ 63 + (⌊|f| / (2 : ℝ) ^ (Int.log 2 |f| - 63)⌋₊ - 2 ^ 63) % 2 ^ 63 =
      ⌊|f| / (2 : ℝ) ^ (Int.log 2 |f| - 63)⌋₊ := by omega
  unfold approxReal truncated
  simp only [BitVec.toNat_ofNat, e, decide_eq_true_eq]

/-- Truncation goes towards zero, by less than one unit of the last place. -/
theorem truncated_bounds {f : ℝ} (hf : f ≠ 0) :
    approxReal (truncated f) * f > 0 ∧ |approxReal (truncated f)| ≤ |f| ∧
      |f| < |approxReal (truncated f)| + (2 : ℝ) ^ (Int.log 2 |f| - 63) := by
  have h0 : 0 < |f| := abs_pos.mpr hf
  have p : (0 : ℝ) < 2 ^ (Int.log 2 |f| - 63) := by positivity
  have n : (0 : ℝ) < ⌊|f| / (2 : ℝ) ^ (Int.log 2 |f| - 63)⌋₊ := by
    have := (scaled_bounds hf).1
    exact_mod_cast (by omega : 0 < ⌊|f| / (2 : ℝ) ^ (Int.log 2 |f| - 63)⌋₊)
  have lo := Nat.floor_le (div_nonneg h0.le p.le)
  have hi := Nat.lt_floor_add_one (|f| / (2 : ℝ) ^ (Int.log 2 |f| - 63))
  rw [le_div_iff₀ p] at lo
  rw [div_lt_iff₀ p, add_mul, one_mul] at hi
  have e : |approxReal (truncated f)| =
      ⌊|f| / (2 : ℝ) ^ (Int.log 2 |f| - 63)⌋₊ * (2 : ℝ) ^ (Int.log 2 |f| - 63) := by
    rw [truncated_value hf, mul_assoc, abs_mul, abs_of_pos (mul_pos n p)]; split <;> simp
  refine ⟨?_, e ▸ lo, e ▸ hi⟩
  rw [truncated_value hf]
  rcases lt_or_gt_of_ne hf with h | h
  · rw [if_pos h, mul_assoc]; nlinarith [mul_pos n p]
  · rw [if_neg h.not_gt, one_mul]; exact mul_pos (mul_pos n p) h

/-- A truncated value is one that R331 allows. -/
theorem truncated_accurate (g : Generation) (rc : RoundMode) {f : ℝ} (hf : f ≠ 0) : Accurate g rc f (truncated f) := by
  obtain ⟨sg, lo, hi⟩ := truncated_bounds hf
  refine ⟨fun k hk hk' => ?_, by simp only [truncated, decide_eq_true_eq]; exact Iff.rfl, ?_⟩
  · have e : Int.log 2 |f| = k := by
      have h1 : k ≤ Int.log 2 |f| := (Int.zpow_le_iff_le_log (by norm_num) (abs_pos.mpr hf)).mp (by exact_mod_cast hk)
      have h2 : Int.log 2 |f| < k + 1 := (Int.lt_zpow_iff_log_lt (by norm_num) (abs_pos.mpr hf)).mp (by exact_mod_cast hk')
      omega
    rw [e] at hi
    have p : (0 : ℝ) < 2 ^ (k - 63) := by positivity
    have d : |f - approxReal (truncated f)| / (2 : ℝ) ^ (k - 63) < 1 := by
      rw [div_lt_one p]
      rcases lt_or_gt_of_ne hf with h | h
      · have : approxReal (truncated f) < 0 := by nlinarith
        rw [abs_of_neg h, abs_of_neg this] at lo hi
        rw [abs_lt]; constructor <;> linarith
      · have : 0 < approxReal (truncated f) := by nlinarith
        rw [abs_of_pos h, abs_of_pos this] at lo hi
        rw [abs_lt]; constructor <;> linarith
    unfold WithinUlps
    repeat' split
    all_goals linarith
  · have : (truncated f).up = false := rfl
    simpa [this] using lo

theorem truncated_le_of_pos {f g : ℝ} (hf : 0 < f) (h : f ≤ g) : approxReal (truncated f) ≤ approxReal (truncated g) := by
  have hg : 0 < g := hf.trans_le h
  obtain ⟨s1, l1, u1⟩ := truncated_bounds hf.ne'
  have p1 : 0 < approxReal (truncated f) := by nlinarith
  rw [abs_of_pos hf, abs_of_pos p1] at l1
  rcases (Int.log_mono_right (b := 2) hf h).lt_or_eq with k | k
  · refine (l1.trans ?_)
    have v := truncated_value hg.ne'
    rw [if_neg hg.not_gt, one_mul, abs_of_pos hg] at v
    have lo := (scaled_bounds hg.ne').1
    rw [abs_of_pos hg] at lo
    have hi := Int.lt_zpow_succ_log_self (b := 2) (by norm_num) f
    push_cast at hi
    rw [v]
    calc f ≤ 2 ^ (Int.log 2 f + 1) := hi.le
      _ ≤ (2 : ℝ) ^ Int.log 2 g := zpow_le_zpow_right₀ (by norm_num) (by omega)
      _ = 2 ^ 63 * 2 ^ (Int.log 2 g - 63) := by
        rw [← zpow_natCast, ← zpow_add₀ (by norm_num)]; congr 1; norm_num
      _ ≤ _ := by gcongr; exact_mod_cast lo
  · rw [truncated_value hf.ne', truncated_value hg.ne', if_neg hf.not_gt, if_neg hg.not_gt, abs_of_pos hf, abs_of_pos hg,
      k, one_mul, one_mul]
    gcongr

theorem truncated_neg {f : ℝ} (hf : f ≠ 0) : approxReal (truncated (-f)) = -approxReal (truncated f) := by
  rw [truncated_value hf, truncated_value (neg_ne_zero.mpr hf), abs_neg]
  rcases lt_or_gt_of_ne hf with h | h
  · rw [if_pos h, if_neg (by linarith)]; ring
  · rw [if_neg h.not_gt, if_pos (by linarith)]; ring

/-- Truncation is monotonic. -/
theorem truncated_mono {f g : ℝ} (hf : f ≠ 0) (hg : g ≠ 0) (h : f ≤ g) :
    approxReal (truncated f) ≤ approxReal (truncated g) := by
  rcases lt_or_gt_of_ne hf with h1 | h1
  · rcases lt_or_gt_of_ne hg with h2 | h2
    · have := truncated_le_of_pos (f := -g) (g := -f) (by linarith) (by linarith)
      rw [truncated_neg hf, truncated_neg hg] at this
      linarith
    · have a := (truncated_bounds hf).1
      have b := (truncated_bounds hg).1
      have a' : approxReal (truncated f) < 0 := by nlinarith
      have b' : 0 < approxReal (truncated g) := by nlinarith
      linarith
  · exact truncated_le_of_pos h1 h

/-- The real number of a NUMERICS argument. -/
noncomputable def argReal (x : Num) : ℝ := (x.toRat : ℝ)

theorem oddPart_value (fuel n : Nat) (k : ℤ) :
    ((oddPart fuel n k).1 : ℚ) * (2 : ℚ) ^ (oddPart fuel n k).2 = n * (2 : ℚ) ^ k := by
  induction fuel generalizing n k with
  | zero => rfl
  | succ m ih =>
    unfold oddPart
    split
    · rw [ih, zpow_add₀ (by norm_num), zpow_one]
      have : (n : ℚ) = 2 * (n / 2 : Nat) := by exact_mod_cast (by omega : n = 2 * (n / 2))
      rw [this]; ring_nf
    · rfl

theorem argReal_argOf (v : Ext) : argReal (argOf v) = realOf v := by
  unfold argReal realOf ratOf argOf normNum Num.toRat
  split
  · simp_all
  · simp only [mul_assoc, oddPart_value]

theorem truncated_allowed1 (g : Generation) (D : Ext → Prop) (f : ℝ → ℝ) (h : ∀ v, D v → f (realOf v) ≠ 0) :
    Allowed1 g D f fun x _ => truncated (f (argReal x)) := by
  refine ⟨fun v rc hv => ?_, fun rc u v hu hv huv => ?_⟩
  · rw [argReal_argOf]; exact truncated_accurate g rc (h v hv)
  · simp only [argReal_argOf]
    have lu : realOf u ∈ Set.Icc (realOf u) (realOf v) := ⟨le_rfl, huv⟩
    have lv : realOf v ∈ Set.Icc (realOf u) (realOf v) := ⟨huv, le_rfl⟩
    exact ⟨fun m => truncated_mono (h u hu) (h v hv) (m lu lv huv), fun m => truncated_mono (h v hv) (h u hu) (m lu lv huv)⟩

theorem truncated_allowed2 (g : Generation) (D E : Ext → Prop) (f : ℝ → ℝ → ℝ)
    (h : ∀ y x, D y → E x → f (realOf y) (realOf x) ≠ 0) :
    Allowed2 g D E f fun y x _ => truncated (f (argReal y) (argReal x)) := by
  refine ⟨fun y x rc hy hx => ?_, fun rc x hx => ?_, fun rc y hy => ?_⟩
  · simp only [argReal_argOf]; exact truncated_accurate g rc (h y x hy hx)
  · have := (truncated_allowed1 g D (fun y => f y (realOf x)) fun y hy => h y x hy hx).monotonic rc
    simpa only [argReal_argOf] using this
  · have := (truncated_allowed1 g E (f (realOf y)) fun x hx => h y x hy hx).monotonic rc
    simpa only [argReal_argOf] using this


/-! ### The function values are not zero -/

theorem isFiniteNonzero_value {v : Ext} (h : isFiniteNonzero v = true) :
    0 < (valOf v).n ∧ (valOf v).n < 2 ^ 64 := by
  refine ⟨Nat.pos_of_ne_zero fun e => ?_, (sigOf v).isLt⟩
  have z : sigOf v = 0#64 := BitVec.eq_of_toNat_eq e
  have j : v.getLsbD 63 = false := by
    have := congrArg (fun x => x.getLsbD 63) z
    simpa [sigOf] using this
  have f : v.extractLsb' 0 63 = 0#63 := by
    have : v.extractLsb' 0 63 = (sigOf v).extractLsb' 0 63 := by
      ext i hi; simp [sigOf]
    rw [this, z]; rfl
  have : classOf v = .zero ∨ classOf v = .pseudoInfinity ∨ classOf v = .unnormal := by
    unfold classOf
    simp only [j, f]
    split
    · simp
    · split <;> simp
  unfold isFiniteNonzero isDenormal at h
  rcases this with e | e | e <;> rw [e] at h <;> exact absurd h (by decide)

theorem realOf_eq (v : Ext) : realOf v = (if (valOf v).neg then -1 else 1) * (valOf v).n * (2 : ℝ) ^ (valOf v).k := by
  unfold realOf ratOf Num.toRat
  push_cast
  split <;> simp

theorem realOf_ne_zero {v : Ext} (h : isFiniteNonzero v = true) : realOf v ≠ 0 := by
  rw [realOf_eq]
  have := (isFiniteNonzero_value h).1
  refine mul_ne_zero (mul_ne_zero (by split <;> norm_num) (by exact_mod_cast this.ne')) (by positivity)

theorem pi66Real_pos : 0 < pi66Real := by unfold pi66Real pi66; norm_num

theorem pi66Real_lt_pi : pi66Real < Real.pi := by
  refine lt_trans ?_ Real.pi_gt_d20
  unfold pi66Real pi66; norm_num

/-- The reduced argument lies within a quarter of PI66 (R326). -/
theorem abs_reduced_le (x : ℝ) : |reduced x| ≤ pi66Real / 4 := by
  have p := pi66Real_pos
  unfold reduced reduceSteps
  split
  · rename_i h; simpa using h.le
  · have h := abs_sub_round (x / (pi66Real / 2))
    have e : x - round (x / (pi66Real / 2)) * (pi66Real / 2) =
        (x / (pi66Real / 2) - round (x / (pi66Real / 2))) * (pi66Real / 2) := by
      field_simp
    rw [e, abs_mul, abs_of_pos (by linarith : 0 < pi66Real / 2)]
    nlinarith

/-- A number of at most 64 significant bits is no multiple of half a PI66, which has 66 (R326). -/
theorem not_multiple_of_pi66 {n : ℕ} (h0 : 0 < n) (h : n < 2 ^ 64) (e j : ℤ) :
    (n : ℝ) * 2 ^ e ≠ j * (pi66Real / 2) := by
  intro eq
  have eq' : (n : ℤ) * 2 ^ (e + 65).toNat = j * pi66 * 2 ^ (-(e + 65)).toNat := by
    have p : ((e + 65).toNat : ℤ) - (-(e + 65)).toNat = e + 65 := by omega
    have q : (n : ℝ) * 2 ^ (e + 65).toNat = j * pi66 * 2 ^ (-(e + 65)).toNat := by
      have t : (2 : ℝ) ^ (e + 65).toNat = 2 ^ e * 2 ^ 65 * 2 ^ (-(e + 65)).toNat := by
        simp only [← zpow_natCast]
        rw [← zpow_add₀ (by norm_num), ← zpow_add₀ (by norm_num)]
        congr 1
        push_cast at p ⊢
        omega
      have c : pi66Real / 2 * 2 ^ 65 = pi66 := by unfold pi66Real; ring
      rw [t, ← mul_assoc, ← mul_assoc, eq, mul_assoc (j : ℝ), c]
    exact_mod_cast q
  have d : (pi66 : ℤ) ∣ n * 2 ^ (e + 65).toNat := ⟨j * 2 ^ (-(e + 65)).toNat, by rw [eq']; ring⟩
  have d' : pi66 ∣ n * 2 ^ (e + 65).toNat := by exact_mod_cast d
  have c : Nat.Coprime pi66 (2 ^ (e + 65).toNat) := Nat.Coprime.pow_right _ (by decide)
  have := Nat.le_of_dvd h0 (c.dvd_of_dvd_mul_right d')
  unfold pi66 at this
  omega

theorem reduced_ne_zero {v : Ext} (h : isFiniteNonzero v = true) : reduced (realOf v) ≠ 0 := by
  intro e
  obtain ⟨h0, h64⟩ := isFiniteNonzero_value h
  unfold reduced at e
  have e := sub_eq_zero.mp e
  generalize reduceSteps (realOf v) = j at e
  rw [realOf_eq] at e
  split at e
  · refine not_multiple_of_pi66 h0 h64 (valOf v).k (-j) ?_
    push_cast
    linarith
  · refine not_multiple_of_pi66 h0 h64 (valOf v).k j ?_
    linarith

theorem abs_reduced_lt_half_pi (x : ℝ) : |reduced x| < Real.pi / 2 := by
  have := abs_reduced_le x
  have := pi66Real_lt_pi
  have := pi66Real_pos
  linarith

theorem sin_reduced_ne_zero {v : Ext} (h : isFiniteNonzero v = true) : Real.sin (reduced (realOf v)) ≠ 0 := by
  have b := abs_lt.mp (abs_reduced_lt_half_pi (realOf v))
  have p := Real.pi_pos
  exact fun e => reduced_ne_zero h ((Real.sin_eq_zero_iff_of_lt_of_lt (by linarith) (by linarith)).mp e)

theorem cos_reduced_pos (x : ℝ) : 0 < Real.cos (reduced x) := by
  have b := abs_lt.mp (abs_reduced_lt_half_pi x)
  exact Real.cos_pos_of_mem_Ioo ⟨by linarith, b.2⟩

theorem tan_reduced_ne_zero {v : Ext} (h : isFiniteNonzero v = true) : Real.tan (reduced (realOf v)) ≠ 0 := by
  rw [Real.tan_eq_sin_div_cos]
  exact div_ne_zero (sin_reduced_ne_zero h) (cos_reduced_pos _).ne'

theorem trueSin_ne_zero {v : Ext} (h : InTrigRange v) : trueSin (realOf v) ≠ 0 := by
  have s := sin_reduced_ne_zero h.1
  have c := (cos_reduced_pos (realOf v)).ne'
  unfold trueSin
  repeat' split
  all_goals simp_all

theorem trueCos_ne_zero {v : Ext} (h : InTrigRange v) : trueCos (realOf v) ≠ 0 := by
  have s := sin_reduced_ne_zero h.1
  have c := (cos_reduced_pos (realOf v)).ne'
  unfold trueCos
  repeat' split
  all_goals simp_all

theorem trueTan_ne_zero {v : Ext} (h : InTrigRange v) : trueTan (realOf v) ≠ 0 := by
  have t := tan_reduced_ne_zero h.1
  unfold trueTan
  split
  · exact t
  · exact neg_ne_zero.mpr (one_div_ne_zero t)

theorem trueAtan2_ne_zero {y x : ℝ} (hy : y ≠ 0) : trueAtan2 y x ≠ 0 := fun e => hy (Complex.arg_eq_zero_iff.mp e).2

theorem trueYlog2x_ne_zero {y x : ℝ} (hy : y ≠ 0) (hx : 0 < x) (h1 : x ≠ 1) : trueYlog2x y x ≠ 0 :=
  mul_ne_zero hy (Real.logb_ne_zero_of_pos_of_ne_one (by norm_num) hx h1)

theorem trueExp2m1_ne_zero {x : ℝ} (hx : x ≠ 0) : trueExp2m1 x ≠ 0 := by
  unfold trueExp2m1
  rcases lt_or_gt_of_ne hx with h | h
  · have := Real.rpow_lt_one_of_one_lt_of_neg (by norm_num : (1 : ℝ) < 2) h; linarith
  · have := Real.one_lt_rpow (by norm_num : (1 : ℝ) < 2) h; linarith

/-- There are functions that R331 allows. -/
theorem exists_numericsConform (P : Params) : Nonempty { N : Numerics // NumericsConform P N } :=
  ⟨{ sin := fun x _ => truncated (trueSin (argReal x))
     cos := fun x _ => truncated (trueCos (argReal x))
     tan := fun x _ => truncated (trueTan (argReal x))
     atan2 := fun y x _ => truncated (trueAtan2 (argReal y) (argReal x))
     ylog2x := fun y x _ => truncated (trueYlog2x (argReal y) (argReal x))
     ylog2xp1 := fun y x _ => truncated (trueYlog2xp1 (argReal y) (argReal x))
     exp2m1 := fun x _ => truncated (trueExp2m1 (argReal x)) },
    { sin := truncated_allowed1 _ _ _ fun _ => trueSin_ne_zero
      cos := truncated_allowed1 _ _ _ fun _ => trueCos_ne_zero
      tan := truncated_allowed1 _ _ _ fun _ => trueTan_ne_zero
      atan2 := truncated_allowed2 _ _ _ _ fun _ _ hy _ => trueAtan2_ne_zero (realOf_ne_zero hy)
      ylog2x := truncated_allowed2 _ _ _ _ fun _ _ hy hx => trueYlog2x_ne_zero (realOf_ne_zero hy) hx.2.1 hx.2.2
      ylog2xp1 := truncated_allowed2 _ _ _ _ fun _ x hy hx =>
        trueYlog2x_ne_zero (realOf_ne_zero hy) (by have := hx.2.2; linarith)
          (by have := realOf_ne_zero hx.1; simpa using this)
      exp2m1 := truncated_allowed1 _ _ _ fun _ hv => trueExp2m1_ne_zero (realOf_ne_zero hv.1) }⟩

/-! ### The NUMERICS of a processor -/

/-- NUMERICS of the processor `P` (R168, U24): functions of which nothing is known but that R331 allows them. -/
def numerics (P : Params) : Numerics :=
  (@Config.unspecified { N : Numerics // NumericsConform P N } (exists_numericsConform P) Params P).val

theorem numerics_conform (P : Params) : NumericsConform P (numerics P) := Subtype.property _

end Sys2Proof.Machine
end

