-- ==== Sys2Proof/Machine/Transcendental.lean ====
section
/-! DEFINITION. Trigonometric, logarithmic, exponential and scale instructions (spec/45_transcendental.md). -/

namespace Sys2Proof.Machine

/-- NUMERICS of the processor (R168). -/
def State.numerics (s : State) : Numerics := Machine.numerics s.params

/-! ### Trigonometric instructions (R321 to R324) -/

/-- The parts in which the four trigonometric instructions differ. -/
structure Trig where
  /-- A second result is pushed. -/
  pushes : Bool
  /-- The responses to a stack fault, an unsupported operand and a NaN. -/
  responses : Responses
  /-- The results for a zero operand. -/
  onZero : Ext → State → State
  /-- The results for a number in range. -/
  onNumber : Ext → State → State

/-- The common body of R321 to R324 after Begin(). -/
def trig (f : Trig) (s : State) : Except Refusal State :=
  let a := s.stOperand 0#3
  preChecks [a] f.pushes f.responses
    (fun t =>
      if isInf a.val then .ok (t.respond .ia fun u => f.responses.invalid ((u.setC2 false).setC1 false))
      else if !isZero a.val && decide (63 ≤ exponentOf (valOf a.val)) then .ok (t.setC2 true).freeC1
      else
        denormalCheck [a] (fun u =>
          if isZero a.val then .ok (f.onZero a.val (u.setC1 false)) else .ok (f.onNumber a.val u)) (t.setC2 false))
    s.freeCodes

/-- The value of a NUMERICS function delivered to ST(0). -/
def State.deliverSt0 (s : State) (x : Approx) : State :=
  let d := deliverT x s
  d.1.setSt 0#3 d.2

/-- R321: FSIN. -/
def execFsin (p : List Prefix) (s : State) : Result :=
  s.nonControl (.fsin p) (trig
    { pushes := false, responses := toDest st0,
      onZero := fun a t => t.setSt 0#3 a,
      onNumber := fun a t => t.deliverSt0 (t.numerics.sin (argOf a) (rcOf t.cw)) })

/-- R322: FCOS. -/
def execFcos (p : List Prefix) (s : State) : Result :=
  s.nonControl (.fcos p) (trig
    { pushes := false, responses := toDest st0,
      onZero := fun _ t => t.setSt 0#3 one,
      onNumber := fun a t => t.deliverSt0 (t.numerics.cos (argOf a) (rcOf t.cw)) })

/-- The two results of R323, the sine in the source register and the cosine pushed; C1 is the common up bit, undefined
where the two differ (U8). -/
def State.sinCos (s : State) (a : Ext) : State :=
  let x := s.numerics.sin (argOf a) (rcOf s.cw)
  let y := s.numerics.cos (argOf a) (rcOf s.cw)
  let d := deliverT x s
  let e := deliverT y d.1
  (e.1.setC1 (if x.up = y.up then x.up else Config.freeC1 s.draws)).writePush d.2 e.2

/-- R323: FSINCOS. -/
def execFsincos (p : List Prefix) (s : State) : Result :=
  s.nonControl (.fsincos p) (trig
    { pushes := true, responses := toPush,
      onZero := fun a t => t.writePush a one,
      onNumber := fun a t => t.sinCos a })

/-- R324: FPTAN. -/
def execFptan (p : List Prefix) (s : State) : Result :=
  s.nonControl (.fptan p) (trig
    { pushes := true, responses := toPush,
      onZero := fun a t => t.writePush a one,
      onNumber := fun a t => (t.deliverSt0 (t.numerics.tan (argOf a) (rcOf t.cw))).push one })

/-! ### Arctangent and logarithms (R325, R327, R328) -/

/-- The destination of the two-operand transcendental instructions: ST(1), then the pop. -/
def st1Pop : Dest := { i := 1#3, pop := true }

/-- An exact result, C1 0. -/
def State.exactDest (s : State) (d : Dest) (v : Ext) : State := (s.setC1 false).writeDest d v

/-- A masked invalid operation gives the real indefinite. -/
def State.invalidDest (s : State) (d : Dest) : State := s.respond .ia fun t => t.exactDest d realIndefinite

/-- The value of a NUMERICS function delivered to a destination. -/
def State.deliverDest (s : State) (d : Dest) (x : Approx) : State :=
  let r := deliverT x s
  r.1.writeDest d r.2

/-- `num / 2^e` times the 66-bit pi, rounded to 64 bits by RC (R325). -/
def State.piDest (s : State) (d : Dest) (neg : Bool) (num e : Nat) : State :=
  let r := deliverReg 64 { neg := neg, mag := .ratio (num * pi66) 1 (-64 - e) } s
  r.1.writeDest d r.2

/-- The special operands of R325, none for two finite non-zero numbers. -/
def State.atanSpecial (s : State) (y x : Ext) (d : Dest) : Option State :=
  let neg := signOf y
  if isZero y then
    if signOf x then some (s.piDest d neg 1 0) else some (s.exactDest d (zero neg))
  else if isInf y then
    if isInf x then (if signOf x then some (s.piDest d neg 3 2) else some (s.piDest d neg 1 2))
    else some (s.piDest d neg 1 1)
  else if isZero x then some (s.piDest d neg 1 1)
  else if isInf x then (if signOf x then some (s.piDest d neg 1 0) else some (s.exactDest d (zero neg)))
  else none

/-- R325: FPATAN. -/
def execFpatan (p : List Prefix) (s : State) : Result :=
  s.nonControl (.fpatan p) fun s =>
    let y := s.stOperand 1#3
    let x := s.stOperand 0#3
    preChecks [y, x] false (toDest st1Pop)
      (denormalCheck [y, x] fun t =>
        match t.atanSpecial y.val x.val st1Pop with
        | some u => .ok u
        | none => .ok (t.deliverDest st1Pop (t.numerics.atan2 (argOf y.val) (argOf x.val) (rcOf t.cw)))) s.freeCodes

/-- The invalid pairs of R327: a negative x, and the invalid cells of its table. -/
def logInvalid (y x : Ext) : Bool :=
  (signOf x && !isZero x) || (isZero x && isZero y) || (cmpExt x one == .equal && isInf y) ||
    (isInf x && !signOf x && isZero y)

/-- The exact cells of the table of R327, for the pairs left after the invalid and zero-divide ones. -/
def logExact (y x : Ext) : Option Ext :=
  let neg := signOf y
  if isZero x then some (infinity (!neg))
  else if isInf x then some (infinity neg)
  else
    match cmpExt x one with
    | .less => if isInf y then some (infinity (!neg)) else if isZero y then some (zero (!neg)) else none
    | .equal => some (zero neg)
    | .greater => if isInf y then some (infinity neg) else if isZero y then some (zero neg) else none
    | .unordered => none

/-- R327: FYL2X. -/
def execFyl2x (p : List Prefix) (s : State) : Result :=
  s.nonControl (.fyl2x p) fun s =>
    let y := s.stOperand 1#3
    let x := s.stOperand 0#3
    preChecks [y, x] false (toDest st1Pop)
      (fun t =>
        if logInvalid y.val x.val then .ok (t.invalidDest st1Pop)
        else if isZero x.val && !isInf y.val then
          .ok (t.respond .z fun u => u.exactDest st1Pop (infinity (!signOf y.val)))
        else
          denormalCheck [y, x] (fun u =>
            match logExact y.val x.val with
            | some v => .ok (u.exactDest st1Pop v)
            | none => .ok (u.deliverDest st1Pop (u.numerics.ylog2x (argOf y.val) (argOf x.val) (rcOf u.cw)))) t)
      s.freeCodes

/-- R328: FYL2XP1; outside the domain the result and C1 are undefined (U7). -/
def execFyl2xp1 (p : List Prefix) (s : State) : Result :=
  s.nonControl (.fyl2xp1 p) fun s =>
    let y := s.stOperand 1#3
    let x := s.stOperand 0#3
    let neg := signOf x.val ^^ signOf y.val
    preChecks [y, x] false (toDest st1Pop)
      (fun t =>
        if cmpExt x.val (negate one) == .less || (isZero x.val && isInf y.val) then .ok (t.invalidDest st1Pop)
        else
          denormalCheck [y, x] (fun u =>
            if !inXp1Domain u.params x.val then .ok (u.freeC1.writeDest st1Pop (Config.freeExt u.draws))
            else if isZero x.val || isZero y.val then .ok (u.exactDest st1Pop (zero neg))
            else if isInf y.val then .ok (u.exactDest st1Pop (infinity neg))
            else .ok (u.deliverDest st1Pop (u.numerics.ylog2xp1 (argOf y.val) (argOf x.val) (rcOf u.cw)))) t)
      s.freeCodes

/-! ### Exponential and scale (R329, R330) -/

/-- The value with its sign cleared. -/
def magnitude (v : Ext) : Ext := v &&& ~~~(1#80 <<< 79)

/-- R329: F2XM1; outside -1 to +1 the result and C1 are undefined (U6). -/
def execF2xm1 (p : List Prefix) (s : State) : Result :=
  s.nonControl (.f2xm1 p) fun s =>
    let a := s.stOperand 0#3
    preChecks [a] false (toDest st0)
      (denormalCheck [a] fun t =>
        if cmpExt (magnitude a.val) one == .greater then .ok (t.freeC1.setSt 0#3 (Config.freeExt t.draws))
        else if isZero a.val then .ok (t.exactDest st0 a.val)
        else .ok (t.deliverSt0 (t.numerics.exp2m1 (argOf a.val) (rcOf t.cw)))) s.freeCodes

/-- The scale of R330, truncated toward zero; beyond 2^17 every scale acts alike, since the exponents of the register
format span less. -/
def scaleOf (b : Num) : Int :=
  let n : Nat := if 17 ≤ exponentOf b then 2 ^ 17 else shiftNat b.n b.k
  if b.neg then -(n : Int) else n

/-- The scaled number delivered (R330): a result beyond the adjusted exponents is an infinity or a zero. -/
def State.deliverScaled (s : State) (x : Num) : State :=
  let e := exponentOf x
  if 16384 + 24576 ≤ e ∧ s.masked .o = false then (s.signal .o).exactDest st0 (infinity x.neg)
  else if e < -16382 - 24576 ∧ s.masked .u = false then (s.signal .u).exactDest st0 (zero x.neg)
  else
    let d := deliverReg 64 (exactNum x) s
    d.1.setSt 0#3 d.2

/-- R330: FSCALE. -/
def execFscale (p : List Prefix) (s : State) : Result :=
  s.nonControl (.fscale p) fun s =>
    let a := s.stOperand 0#3
    let b := s.stOperand 1#3
    preChecks [a, b] false (toDest st0)
      (fun t =>
        if (isZero a.val && isInf b.val && !signOf b.val) || (isInf a.val && isInf b.val && signOf b.val) then
          .ok (t.invalidDest st0)
        else
          denormalCheck [a, b] (fun u =>
            if isInf a.val || isZero a.val then .ok (u.setC1 false)
            else if isInf b.val then
              .ok (u.exactDest st0 (if signOf b.val then zero (signOf a.val) else infinity (signOf a.val)))
            else
              let x := valOf a.val
              .ok (u.deliverScaled { x with k := x.k + scaleOf (valOf b.val) })) t) s.freeCodes

end Sys2Proof.Machine
end

