-- ==== Sys2Proof/Machine/Dispatch.lean ====
section
/-! DEFINITION. The dispatch: one arm for each instruction, each one call of its meaning. -/

namespace Sys2Proof.Machine

/-- The meaning of an instruction. -/
def exec (i : Instr) (s : State) : Host.Outcome State Fault Refusal :=
  match i with
  | .faddM32 p m => Sys2Proof.Machine.execFaddM32 p m s
  | .fmulM32 p m => Sys2Proof.Machine.execFmulM32 p m s
  | .fcomM32 p m => Sys2Proof.Machine.execFcomM32 p m s
  | .fcompM32 p m => Sys2Proof.Machine.execFcompM32 p m s
  | .fsubM32 p m => Sys2Proof.Machine.execFsubM32 p m s
  | .fsubrM32 p m => Sys2Proof.Machine.execFsubrM32 p m s
  | .fdivM32 p m => Sys2Proof.Machine.execFdivM32 p m s
  | .fdivrM32 p m => Sys2Proof.Machine.execFdivrM32 p m s
  | .faddSt0Sti p j => Sys2Proof.Machine.execFaddSt0Sti p j s
  | .fmulSt0Sti p j => Sys2Proof.Machine.execFmulSt0Sti p j s
  | .fcomSti p j => Sys2Proof.Machine.execFcomSti p j s
  | .fcompSti p j => Sys2Proof.Machine.execFcompSti p j s
  | .fsubSt0Sti p j => Sys2Proof.Machine.execFsubSt0Sti p j s
  | .fsubrSt0Sti p j => Sys2Proof.Machine.execFsubrSt0Sti p j s
  | .fdivSt0Sti p j => Sys2Proof.Machine.execFdivSt0Sti p j s
  | .fdivrSt0Sti p j => Sys2Proof.Machine.execFdivrSt0Sti p j s
  | .fldM32 p m => Sys2Proof.Machine.execFldM32 p m s
  | .reservedD9m1 p m => Sys2Proof.Machine.execReservedD9m1 p m s
  | .fstM32 p m => Sys2Proof.Machine.execFstM32 p m s
  | .fstpM32 p m => Sys2Proof.Machine.execFstpM32 p m s
  | .fldenv p m => Sys2Proof.Machine.execFldenv p m s
  | .fldcw p m => Sys2Proof.Machine.execFldcw p m s
  | .fnstenv p m => Sys2Proof.Machine.execFnstenv p m s
  | .fnstcw p m => Sys2Proof.Machine.execFnstcw p m s
  | .fldSti p j => Sys2Proof.Machine.execFldSti p j s
  | .fxch p j => Sys2Proof.Machine.execFxch p j s
  | .fnop p => Sys2Proof.Machine.execFnop p s
  | .reservedD9D1 p => Sys2Proof.Machine.execReservedD9D1 p s
  | .reservedD9D2 p low => Sys2Proof.Machine.execReservedD9D2 p low s
  | .reservedD9D4 p low => Sys2Proof.Machine.execReservedD9D4 p low s
  | .reservedD9D8 p low => Sys2Proof.Machine.execReservedD9D8 p low s
  | .fchs p => Sys2Proof.Machine.execFchs p s
  | .fabs p => Sys2Proof.Machine.execFabs p s
  | .reservedD9E2 p low => Sys2Proof.Machine.execReservedD9E2 p low s
  | .ftst p => Sys2Proof.Machine.execFtst p s
  | .fxam p => Sys2Proof.Machine.execFxam p s
  | .reservedD9E6 p low => Sys2Proof.Machine.execReservedD9E6 p low s
  | .fld1 p => Sys2Proof.Machine.execFld1 p s
  | .fldl2t p => Sys2Proof.Machine.execFldl2t p s
  | .fldl2e p => Sys2Proof.Machine.execFldl2e p s
  | .fldpi p => Sys2Proof.Machine.execFldpi p s
  | .fldlg2 p => Sys2Proof.Machine.execFldlg2 p s
  | .fldln2 p => Sys2Proof.Machine.execFldln2 p s
  | .fldz p => Sys2Proof.Machine.execFldz p s
  | .reservedD9EF p => Sys2Proof.Machine.execReservedD9EF p s
  | .f2xm1 p => Sys2Proof.Machine.execF2xm1 p s
  | .fyl2x p => Sys2Proof.Machine.execFyl2x p s
  | .fptan p => Sys2Proof.Machine.execFptan p s
  | .fpatan p => Sys2Proof.Machine.execFpatan p s
  | .fxtract p => Sys2Proof.Machine.execFxtract p s
  | .fprem1 p => Sys2Proof.Machine.execFprem1 p s
  | .fdecstp p => Sys2Proof.Machine.execFdecstp p s
  | .fincstp p => Sys2Proof.Machine.execFincstp p s
  | .fprem p => Sys2Proof.Machine.execFprem p s
  | .fyl2xp1 p => Sys2Proof.Machine.execFyl2xp1 p s
  | .fsqrt p => Sys2Proof.Machine.execFsqrt p s
  | .fsincos p => Sys2Proof.Machine.execFsincos p s
  | .frndint p => Sys2Proof.Machine.execFrndint p s
  | .fscale p => Sys2Proof.Machine.execFscale p s
  | .fsin p => Sys2Proof.Machine.execFsin p s
  | .fcos p => Sys2Proof.Machine.execFcos p s
  | .fiaddM32i p m => Sys2Proof.Machine.execFiaddM32i p m s
  | .fimulM32i p m => Sys2Proof.Machine.execFimulM32i p m s
  | .ficomM32i p m => Sys2Proof.Machine.execFicomM32i p m s
  | .ficompM32i p m => Sys2Proof.Machine.execFicompM32i p m s
  | .fisubM32i p m => Sys2Proof.Machine.execFisubM32i p m s
  | .fisubrM32i p m => Sys2Proof.Machine.execFisubrM32i p m s
  | .fidivM32i p m => Sys2Proof.Machine.execFidivM32i p m s
  | .fidivrM32i p m => Sys2Proof.Machine.execFidivrM32i p m s
  | .fcmovb p j => Sys2Proof.Machine.execFcmovb p j s
  | .fcmove p j => Sys2Proof.Machine.execFcmove p j s
  | .fcmovbe p j => Sys2Proof.Machine.execFcmovbe p j s
  | .fcmovu p j => Sys2Proof.Machine.execFcmovu p j s
  | .reservedDAE0 p low => Sys2Proof.Machine.execReservedDAE0 p low s
  | .reservedDAE8 p => Sys2Proof.Machine.execReservedDAE8 p s
  | .fucompp p => Sys2Proof.Machine.execFucompp p s
  | .reservedDAEA p low => Sys2Proof.Machine.execReservedDAEA p low s
  | .reservedDAEC p low => Sys2Proof.Machine.execReservedDAEC p low s
  | .reservedDAF0 p low => Sys2Proof.Machine.execReservedDAF0 p low s
  | .fildM32i p m => Sys2Proof.Machine.execFildM32i p m s
  | .reservedDBm1 p m => Sys2Proof.Machine.execReservedDBm1 p m s
  | .fistM32i p m => Sys2Proof.Machine.execFistM32i p m s
  | .fistpM32i p m => Sys2Proof.Machine.execFistpM32i p m s
  | .reservedDBm4 p m => Sys2Proof.Machine.execReservedDBm4 p m s
  | .fldM80 p m => Sys2Proof.Machine.execFldM80 p m s
  | .reservedDBm6 p m => Sys2Proof.Machine.execReservedDBm6 p m s
  | .fstpM80 p m => Sys2Proof.Machine.execFstpM80 p m s
  | .fcmovnb p j => Sys2Proof.Machine.execFcmovnb p j s
  | .fcmovne p j => Sys2Proof.Machine.execFcmovne p j s
  | .fcmovnbe p j => Sys2Proof.Machine.execFcmovnbe p j s
  | .fcmovnu p j => Sys2Proof.Machine.execFcmovnu p j s
  | .feni p => Sys2Proof.Machine.execFeni p s
  | .fdisi p => Sys2Proof.Machine.execFdisi p s
  | .fnclex p => Sys2Proof.Machine.execFnclex p s
  | .fninit p => Sys2Proof.Machine.execFninit p s
  | .fsetpm p => Sys2Proof.Machine.execFsetpm p s
  | .reservedDBE5 p => Sys2Proof.Machine.execReservedDBE5 p s
  | .reservedDBE6 p low => Sys2Proof.Machine.execReservedDBE6 p low s
  | .fucomi p j => Sys2Proof.Machine.execFucomi p j s
  | .fcomi p j => Sys2Proof.Machine.execFcomi p j s
  | .reservedDBF8 p low => Sys2Proof.Machine.execReservedDBF8 p low s
  | .faddM64 p m => Sys2Proof.Machine.execFaddM64 p m s
  | .fmulM64 p m => Sys2Proof.Machine.execFmulM64 p m s
  | .fcomM64 p m => Sys2Proof.Machine.execFcomM64 p m s
  | .fcompM64 p m => Sys2Proof.Machine.execFcompM64 p m s
  | .fsubM64 p m => Sys2Proof.Machine.execFsubM64 p m s
  | .fsubrM64 p m => Sys2Proof.Machine.execFsubrM64 p m s
  | .fdivM64 p m => Sys2Proof.Machine.execFdivM64 p m s
  | .fdivrM64 p m => Sys2Proof.Machine.execFdivrM64 p m s
  | .faddStiSt0 p j => Sys2Proof.Machine.execFaddStiSt0 p j s
  | .fmulStiSt0 p j => Sys2Proof.Machine.execFmulStiSt0 p j s
  | .reservedDCD0 p low => Sys2Proof.Machine.execReservedDCD0 p low s
  | .fsubrStiSt0 p j => Sys2Proof.Machine.execFsubrStiSt0 p j s
  | .fsubStiSt0 p j => Sys2Proof.Machine.execFsubStiSt0 p j s
  | .fdivrStiSt0 p j => Sys2Proof.Machine.execFdivrStiSt0 p j s
  | .fdivStiSt0 p j => Sys2Proof.Machine.execFdivStiSt0 p j s
  | .fldM64 p m => Sys2Proof.Machine.execFldM64 p m s
  | .reservedDDm1 p m => Sys2Proof.Machine.execReservedDDm1 p m s
  | .fstM64 p m => Sys2Proof.Machine.execFstM64 p m s
  | .fstpM64 p m => Sys2Proof.Machine.execFstpM64 p m s
  | .frstor p m => Sys2Proof.Machine.execFrstor p m s
  | .reservedDDm5 p m => Sys2Proof.Machine.execReservedDDm5 p m s
  | .fnsave p m => Sys2Proof.Machine.execFnsave p m s
  | .fnstswM16 p m => Sys2Proof.Machine.execFnstswM16 p m s
  | .ffree p j => Sys2Proof.Machine.execFfree p j s
  | .reservedDDC8 p low => Sys2Proof.Machine.execReservedDDC8 p low s
  | .fstSti p j => Sys2Proof.Machine.execFstSti p j s
  | .fstpSti p j => Sys2Proof.Machine.execFstpSti p j s
  | .fucom p j => Sys2Proof.Machine.execFucom p j s
  | .fucomp p j => Sys2Proof.Machine.execFucomp p j s
  | .reservedDDF0 p low => Sys2Proof.Machine.execReservedDDF0 p low s
  | .fiaddM16i p m => Sys2Proof.Machine.execFiaddM16i p m s
  | .fimulM16i p m => Sys2Proof.Machine.execFimulM16i p m s
  | .ficomM16i p m => Sys2Proof.Machine.execFicomM16i p m s
  | .ficompM16i p m => Sys2Proof.Machine.execFicompM16i p m s
  | .fisubM16i p m => Sys2Proof.Machine.execFisubM16i p m s
  | .fisubrM16i p m => Sys2Proof.Machine.execFisubrM16i p m s
  | .fidivM16i p m => Sys2Proof.Machine.execFidivM16i p m s
  | .fidivrM16i p m => Sys2Proof.Machine.execFidivrM16i p m s
  | .faddp p j => Sys2Proof.Machine.execFaddp p j s
  | .fmulp p j => Sys2Proof.Machine.execFmulp p j s
  | .reservedDED0 p low => Sys2Proof.Machine.execReservedDED0 p low s
  | .reservedDED8 p => Sys2Proof.Machine.execReservedDED8 p s
  | .fcompp p => Sys2Proof.Machine.execFcompp p s
  | .reservedDEDA p low => Sys2Proof.Machine.execReservedDEDA p low s
  | .reservedDEDC p low => Sys2Proof.Machine.execReservedDEDC p low s
  | .fsubrp p j => Sys2Proof.Machine.execFsubrp p j s
  | .fsubp p j => Sys2Proof.Machine.execFsubp p j s
  | .fdivrp p j => Sys2Proof.Machine.execFdivrp p j s
  | .fdivp p j => Sys2Proof.Machine.execFdivp p j s
  | .fildM16i p m => Sys2Proof.Machine.execFildM16i p m s
  | .reservedDFm1 p m => Sys2Proof.Machine.execReservedDFm1 p m s
  | .fistM16i p m => Sys2Proof.Machine.execFistM16i p m s
  | .fistpM16i p m => Sys2Proof.Machine.execFistpM16i p m s
  | .fbld p m => Sys2Proof.Machine.execFbld p m s
  | .fildM64i p m => Sys2Proof.Machine.execFildM64i p m s
  | .fbstp p m => Sys2Proof.Machine.execFbstp p m s
  | .fistpM64i p m => Sys2Proof.Machine.execFistpM64i p m s
  | .reservedDFC0 p low => Sys2Proof.Machine.execReservedDFC0 p low s
  | .fnstswAx p => Sys2Proof.Machine.execFnstswAx p s
  | .reservedDFE1 p => Sys2Proof.Machine.execReservedDFE1 p s
  | .reservedDFE2 p low => Sys2Proof.Machine.execReservedDFE2 p low s
  | .reservedDFE4 p low => Sys2Proof.Machine.execReservedDFE4 p low s
  | .fucomip p j => Sys2Proof.Machine.execFucomip p j s
  | .fcomip p j => Sys2Proof.Machine.execFcomip p j s
  | .reservedDFF8 p low => Sys2Proof.Machine.execReservedDFF8 p low s
  | .wait p => Sys2Proof.Machine.execWait p s
  | .finit p => Sys2Proof.Machine.execFinit p s
  | .fclex p => Sys2Proof.Machine.execFclex p s
  | .fstcw p m => Sys2Proof.Machine.execFstcw p m s
  | .fstswM16 p m => Sys2Proof.Machine.execFstswM16 p m s
  | .fstswAx p => Sys2Proof.Machine.execFstswAx p s
  | .fstenv p m => Sys2Proof.Machine.execFstenv p m s
  | .fsave p m => Sys2Proof.Machine.execFsave p m s

end Sys2Proof.Machine
end

