-- ==== Sys2Proof/Machine/Fetch.lean ====
section
/-! DEFINITION. Fetching an instruction's bytes from memory, and what bytes that are no FPU instruction lead to
(spec/20_memory.md R83, spec/30_encoding.md R106, R123). -/

namespace Sys2Proof.Machine

/-- The bytes of memory from `a` up: `n` of them, or those below the end of the offset space. -/
def fetchFrom (m : List Host.Cell) (a : Nat) : Nat → List Byte
  | 0 => []
  | n + 1 => if a < memEnd then memByte m a :: fetchFrom m (a + 1) n else []

/-- The bytes an instruction at the instruction pointer can have.

DESIGN CHOICE, unsafe (log entry 54): they are those at the linear address EIP, whatever CS holds (code-segment base 0).
The spec leaves the fetch and its translation to the host (R52, R83). -/
def State.fetch (s : State) : List Byte := fetchFrom s.mem s.eip.toNat maxLength

/-- The instruction at the instruction pointer. -/
def State.fetchInstr (s : State) : Except DecodeError Instr := (decode s.code32 s.fetch).map fun x => x.1

/-- What a step does with bytes that are no FPU instruction: LOCK raises the host's invalid-opcode exception (R106);
bytes that end too soon run past the end of the offset space, or are more than an instruction can have; any other is
not an instruction of this spec.

DESIGN CHOICE, unsafe (log entry 53): the invalid-opcode exception of LOCK is raised whether or not an exception is
pending (ES = 1). R413 leaves open which comes first, a pending FPU exception or a fault of the next instruction; here
the invalid-opcode exception does, with no #MF, no FERR# and no freeze before it, and ES stays as it was. -/
def State.undecodable (s : State) (e : DecodeError) : Result :=
  match e with
  | .lockPrefix => .next s.raiseInvalidOpcode
  | .truncated => if s.fetch.length < maxLength then .fault .fetchPastEnd else .refused (.undecodable .tooLong)
  | .notFpu b => .refused (.undecodable (.notFpu b))
  | .repPrefix => .refused (.undecodable .repPrefix)
  | .tooLong => .refused (.undecodable .tooLong)

/-- The host has control: after #MF or the invalid-opcode exception it runs its handler; a frozen processor tries the
instruction again (R417, R418, D29). -/
def HostEvent.stops : HostEvent → Bool
  | .none => false
  | .mf _ => true
  | .frozen => false
  | .invalidOpcode _ => true

/-- Bytes stored from `a` up, within the offset space. -/
def memPlace : List Host.Cell → Nat → List Byte → List Host.Cell
  | m, _, [] => m
  | m, a, b :: bs => if a < memEnd then memPlace (memSet m a b) (a + 1) bs else m

/-- The bytes of a word of the opcode table followed by zeros, up to the longest instruction. -/
def tableWindow (nbits w : Nat) : List Byte := (tableBytes nbits w ++ List.replicate maxLength 0#8).take maxLength

end Sys2Proof.Machine
end

