-- ==== Sys2Proof/Machine/Step.lean ====
section
/-! DEFINITION. One step: fetch, decode, execute. -/

namespace Sys2Proof.Machine

/-- One step. -/
def step (s : State) : Host.Outcome State Fault Refusal :=
  if s.event.stops then .refused .hostHasControl
  else
    match s.fetchInstr with
    | .ok i => exec i (s.withEvent .none)
    | .error e => (s.withEvent .none).undecodable e

/-- The state with the instruction of a word of the opcode table where the next step fetches it, in a 32-bit code
segment (log entry 14). -/
def State.withFetchWord (s : State) (nbits w : Nat) : State :=
  { s with mem := memPlace s.mem s.eip.toNat (tableWindow nbits w), code32 := true, event := .none }

end Sys2Proof.Machine
end

