-- ==== Sys2Proof/Safety.lean ====
section
/-! DEFINITION. What counts as a safe run, in the terms the statements use: the invariant, the classes of instructions
the rules name, and the relations between the states before and after an instruction. -/

namespace Sys2Proof.Machine

/-! ### The invariant -/

/-- What every step keeps: memory in its canonical form, each tag empty or the tag of its register's value (R41), ES the
summary of the flags and masks (R33), B equal to ES (R34), FERR# deasserted while ES is 0 (R418). -/
structure State.Inv (s : State) : Prop where
  memory : memWf s.mem = true
  tags : ∀ k : Fin 8, s.tags.get k = .empty ∨ s.tags.get k = tagOf (s.regs.get k)
  es : s.sw.es = summary s.sw s.cw
  busy : s.sw.b = s.sw.es
  ferr : s.ferr = true → s.sw.es = true

end Sys2Proof.Machine

namespace Sys2Proof

/-! ### Classes of instructions -/

/-- The encodings of R116. -/
def Instr.isReserved : Instr → Bool
  | .reservedD9m1 _ _ => true
  | .reservedD9D1 _ => true
  | .reservedD9D2 _ _ => true
  | .reservedD9D4 _ _ => true
  | .reservedD9D8 _ _ => true
  | .reservedD9E2 _ _ => true
  | .reservedD9E6 _ _ => true
  | .reservedD9EF _ => true
  | .reservedDAE0 _ _ => true
  | .reservedDAE8 _ => true
  | .reservedDAEA _ _ => true
  | .reservedDAEC _ _ => true
  | .reservedDAF0 _ _ => true
  | .reservedDBm1 _ _ => true
  | .reservedDBm4 _ _ => true
  | .reservedDBm6 _ _ => true
  | .reservedDBE5 _ => true
  | .reservedDBE6 _ _ => true
  | .reservedDBF8 _ _ => true
  | .reservedDCD0 _ _ => true
  | .reservedDDm1 _ _ => true
  | .reservedDDm5 _ _ => true
  | .reservedDDC8 _ _ => true
  | .reservedDDF0 _ _ => true
  | .reservedDED0 _ _ => true
  | .reservedDED8 _ => true
  | .reservedDEDA _ _ => true
  | .reservedDEDC _ _ => true
  | .reservedDFm1 _ _ => true
  | .reservedDFC0 _ _ => true
  | .reservedDFE1 _ => true
  | .reservedDFE2 _ _ => true
  | .reservedDFE4 _ _ => true
  | .reservedDFF8 _ _ => true
  | _ => false

/-- The instructions that do not call CheckPending (R351, R424): FNINIT, FNCLEX, FNSTCW, FNSTSW, FNSTENV, FNSAVE, and the
three no-operation opcodes (D27). -/
def Instr.nonWaiting : Instr → Bool
  | .fninit _ => true
  | .fnclex _ => true
  | .fnstcw _ _ => true
  | .fnstswM16 _ _ => true
  | .fnstswAx _ => true
  | .fnstenv _ _ => true
  | .fnsave _ _ => true
  | .feni _ => true
  | .fdisi _ => true
  | .fsetpm _ => true
  | _ => false

/-- FCMOVcc, which the processor may lack (R7, HAS_FCMOV). -/
def Instr.isFcmov : Instr → Bool
  | .fcmovb _ _ => true
  | .fcmove _ _ => true
  | .fcmovbe _ _ => true
  | .fcmovu _ _ => true
  | .fcmovnb _ _ => true
  | .fcmovne _ _ => true
  | .fcmovnbe _ _ => true
  | .fcmovnu _ _ => true
  | _ => false

/-- FCOMI and its kin, which the processor may lack (R7, HAS_FCOMI), and the only instructions that write EFLAGS (R50). -/
def Instr.isFcomi : Instr → Bool
  | .fcomi _ _ => true
  | .fcomip _ _ => true
  | .fucomi _ _ => true
  | .fucomip _ _ => true
  | _ => false

/-- The processor has the instruction (R7, R116). -/
def Instr.present (P : Params) (i : Instr) : Bool :=
  !i.isReserved && (!i.isFcmov || P.hasFcmov) && (!i.isFcomi || P.hasFcomi)

/-- The control instructions that begin by replacing FPU state: FINIT, FNINIT, FSAVE, FNSAVE, FLDENV, FRSTOR. -/
def Instr.replacesState : Instr → Bool
  | .fninit _ => true
  | .finit _ => true
  | .fnsave _ _ => true
  | .fsave _ _ => true
  | .fldenv _ _ => true
  | .frstor _ _ => true
  | _ => false

/-- The instructions that may clear an exception flag or SF (R32, R35): those that replace the state, FCLEX and FNCLEX. -/
def Instr.clearsFlags : Instr → Bool
  | .fnclex _ => true
  | .fclex _ => true
  | i => i.replacesState

/-- The instructions that write the control word (R36): those that replace the state, FLDCW, FSTENV and FNSTENV. -/
def Instr.writesCw : Instr → Bool
  | .fldcw _ _ => true
  | .fnstenv _ _ => true
  | .fstenv _ _ => true
  | i => i.replacesState

/-- The instructions that leave FIP, FDP and FOP unchanged (R46). -/
def Instr.keepsPointers : Instr → Bool
  | .fldcw _ _ => true
  | .fnstcw _ _ => true
  | .fstcw _ _ => true
  | .fnstswM16 _ _ => true
  | .fnstswAx _ => true
  | .fstswM16 _ _ => true
  | .fstswAx _ => true
  | .fnclex _ => true
  | .fclex _ => true
  | .fnstenv _ _ => true
  | .fstenv _ _ => true
  | .wait _ => true
  | .feni _ => true
  | .fdisi _ => true
  | .fsetpm _ => true
  | _ => false

/-- FSTSW AX and FNSTSW AX, the only instructions that write a general register (R49). -/
def Instr.writesAx : Instr → Bool
  | .fnstswAx _ => true
  | .fstswAx _ => true
  | _ => false

/-- The bytes an instruction stores: the operand's address and how many (R73); none for an instruction that stores
nothing. -/
def Instr.stored (s : Machine.State) : Instr → Option (Nat × Nat)
  | .fstM32 _ m => some (s.addr m, 4)
  | .fstpM32 _ m => some (s.addr m, 4)
  | .fstM64 _ m => some (s.addr m, 8)
  | .fstpM64 _ m => some (s.addr m, 8)
  | .fstpM80 _ m => some (s.addr m, 10)
  | .fistM16i _ m => some (s.addr m, 2)
  | .fistpM16i _ m => some (s.addr m, 2)
  | .fistM32i _ m => some (s.addr m, 4)
  | .fistpM32i _ m => some (s.addr m, 4)
  | .fistpM64i _ m => some (s.addr m, 8)
  | .fbstp _ m => some (s.addr m, 10)
  | .fnstcw _ m => some (s.addr m, 2)
  | .fstcw _ m => some (s.addr m, 2)
  | .fnstswM16 _ m => some (s.addr m, 2)
  | .fstswM16 _ m => some (s.addr m, 2)
  | .fnstenv p m => some (s.addr m, (s.imageFormat p).size)
  | .fstenv p m => some (s.addr m, (s.imageFormat p).size)
  | .fnsave p m => some (s.addr m, (s.imageFormat p).size + 80)
  | .fsave p m => some (s.addr m, (s.imageFormat p).size + 80)
  | _ => none

/-- The bytes of the memory operand (the tables of spec/30_encoding.md; the images of R366 and R381); 0 without one. -/
def Instr.operandBytes (s : Machine.State) : Instr → Nat
  | .faddM32 _ _ => 4
  | .faddM64 _ _ => 8
  | .fbld _ _ => 10
  | .fbstp _ _ => 10
  | .fcomM32 _ _ => 4
  | .fcomM64 _ _ => 8
  | .fcompM32 _ _ => 4
  | .fcompM64 _ _ => 8
  | .fdivM32 _ _ => 4
  | .fdivM64 _ _ => 8
  | .fdivrM32 _ _ => 4
  | .fdivrM64 _ _ => 8
  | .fiaddM16i _ _ => 2
  | .fiaddM32i _ _ => 4
  | .ficomM16i _ _ => 2
  | .ficomM32i _ _ => 4
  | .ficompM16i _ _ => 2
  | .ficompM32i _ _ => 4
  | .fidivM16i _ _ => 2
  | .fidivM32i _ _ => 4
  | .fidivrM16i _ _ => 2
  | .fidivrM32i _ _ => 4
  | .fildM16i _ _ => 2
  | .fildM32i _ _ => 4
  | .fildM64i _ _ => 8
  | .fimulM16i _ _ => 2
  | .fimulM32i _ _ => 4
  | .fistM16i _ _ => 2
  | .fistM32i _ _ => 4
  | .fistpM16i _ _ => 2
  | .fistpM32i _ _ => 4
  | .fistpM64i _ _ => 8
  | .fisubM16i _ _ => 2
  | .fisubM32i _ _ => 4
  | .fisubrM16i _ _ => 2
  | .fisubrM32i _ _ => 4
  | .fldM32 _ _ => 4
  | .fldM64 _ _ => 8
  | .fldM80 _ _ => 10
  | .fldcw _ _ => 2
  | .fldenv p _ => (s.imageFormat p).size
  | .fmulM32 _ _ => 4
  | .fmulM64 _ _ => 8
  | .fnsave p _ => (s.imageFormat p).size + 80
  | .fnstcw _ _ => 2
  | .fnstenv p _ => (s.imageFormat p).size
  | .fnstswM16 _ _ => 2
  | .frstor p _ => (s.imageFormat p).size + 80
  | .fsave p _ => (s.imageFormat p).size + 80
  | .fstM32 _ _ => 4
  | .fstM64 _ _ => 8
  | .fstcw _ _ => 2
  | .fstenv p _ => (s.imageFormat p).size
  | .fstpM32 _ _ => 4
  | .fstpM64 _ _ => 8
  | .fstpM80 _ _ => 10
  | .fstswM16 _ _ => 2
  | .fsubM32 _ _ => 4
  | .fsubM64 _ _ => 8
  | .fsubrM32 _ _ => 4
  | .fsubrM64 _ _ => 8
  | _ => 0

/-- Every index. -/
def allIndices : List StIdx := [0#3, 1#3, 2#3, 3#3, 4#3, 5#3, 6#3, 7#3]

/-- The registers, by their index before the instruction, whose contents or tag an instruction may change: its
destinations, the register a push fills (ST(7)) and the registers its pops free. -/
def Instr.touches : Instr → List StIdx
  | .fldM32 _ _ => [7#3]
  | .fldM64 _ _ => [7#3]
  | .fldM80 _ _ => [7#3]
  | .fldSti _ _ => [7#3]
  | .fildM16i _ _ => [7#3]
  | .fildM32i _ _ => [7#3]
  | .fildM64i _ _ => [7#3]
  | .fbld _ _ => [7#3]
  | .fldz _ => [7#3]
  | .fld1 _ => [7#3]
  | .fldpi _ => [7#3]
  | .fldl2t _ => [7#3]
  | .fldl2e _ => [7#3]
  | .fldlg2 _ => [7#3]
  | .fldln2 _ => [7#3]
  | .fstpM32 _ _ => [0#3]
  | .fstpM64 _ _ => [0#3]
  | .fstpM80 _ _ => [0#3]
  | .fistpM16i _ _ => [0#3]
  | .fistpM32i _ _ => [0#3]
  | .fistpM64i _ _ => [0#3]
  | .fbstp _ _ => [0#3]
  | .fstSti _ i => [i]
  | .fstpSti _ i => [i, 0#3]
  | .fxch _ i => [0#3, i]
  | .fcmovb _ _ => [0#3]
  | .fcmove _ _ => [0#3]
  | .fcmovbe _ _ => [0#3]
  | .fcmovu _ _ => [0#3]
  | .fcmovnb _ _ => [0#3]
  | .fcmovne _ _ => [0#3]
  | .fcmovnbe _ _ => [0#3]
  | .fcmovnu _ _ => [0#3]
  | .faddM32 _ _ => [0#3]
  | .fmulM32 _ _ => [0#3]
  | .fsubM32 _ _ => [0#3]
  | .fsubrM32 _ _ => [0#3]
  | .fdivM32 _ _ => [0#3]
  | .fdivrM32 _ _ => [0#3]
  | .faddM64 _ _ => [0#3]
  | .fmulM64 _ _ => [0#3]
  | .fsubM64 _ _ => [0#3]
  | .fsubrM64 _ _ => [0#3]
  | .fdivM64 _ _ => [0#3]
  | .fdivrM64 _ _ => [0#3]
  | .faddSt0Sti _ _ => [0#3]
  | .fmulSt0Sti _ _ => [0#3]
  | .fsubSt0Sti _ _ => [0#3]
  | .fsubrSt0Sti _ _ => [0#3]
  | .fdivSt0Sti _ _ => [0#3]
  | .fdivrSt0Sti _ _ => [0#3]
  | .faddStiSt0 _ i => [i]
  | .fmulStiSt0 _ i => [i]
  | .fsubStiSt0 _ i => [i]
  | .fsubrStiSt0 _ i => [i]
  | .fdivStiSt0 _ i => [i]
  | .fdivrStiSt0 _ i => [i]
  | .faddp _ i => [i, 0#3]
  | .fmulp _ i => [i, 0#3]
  | .fsubp _ i => [i, 0#3]
  | .fsubrp _ i => [i, 0#3]
  | .fdivp _ i => [i, 0#3]
  | .fdivrp _ i => [i, 0#3]
  | .fiaddM16i _ _ => [0#3]
  | .fimulM16i _ _ => [0#3]
  | .fisubM16i _ _ => [0#3]
  | .fisubrM16i _ _ => [0#3]
  | .fidivM16i _ _ => [0#3]
  | .fidivrM16i _ _ => [0#3]
  | .fiaddM32i _ _ => [0#3]
  | .fimulM32i _ _ => [0#3]
  | .fisubM32i _ _ => [0#3]
  | .fisubrM32i _ _ => [0#3]
  | .fidivM32i _ _ => [0#3]
  | .fidivrM32i _ _ => [0#3]
  | .fabs _ => [0#3]
  | .fchs _ => [0#3]
  | .fsqrt _ => [0#3]
  | .fprem _ => [0#3]
  | .fprem1 _ => [0#3]
  | .frndint _ => [0#3]
  | .fxtract _ => [0#3, 7#3]
  | .fcompM32 _ _ => [0#3]
  | .fcompM64 _ _ => [0#3]
  | .fcompSti _ _ => [0#3]
  | .fcompp _ => [0#3, 1#3]
  | .fucomp _ _ => [0#3]
  | .fucompp _ => [0#3, 1#3]
  | .ficompM16i _ _ => [0#3]
  | .ficompM32i _ _ => [0#3]
  | .fcomip _ _ => [0#3]
  | .fucomip _ _ => [0#3]
  | .fsin _ => [0#3]
  | .fcos _ => [0#3]
  | .fsincos _ => [0#3, 7#3]
  | .fptan _ => [0#3, 7#3]
  | .fpatan _ => [0#3, 1#3]
  | .fyl2x _ => [0#3, 1#3]
  | .fyl2xp1 _ => [0#3, 1#3]
  | .f2xm1 _ => [0#3]
  | .fscale _ => [0#3]
  | .ffree _ i => [i]
  | i => if i.replacesState then allIndices else []

/-- How far an instruction may move TOP: a push by 7, a pop by 1, FCOMPP and FUCOMPP by 2 (R180, R181). -/
def Instr.topMoves : Instr → List (BitVec 3)
  | .fldM32 _ _ => [7#3]
  | .fldM64 _ _ => [7#3]
  | .fldM80 _ _ => [7#3]
  | .fldSti _ _ => [7#3]
  | .fildM16i _ _ => [7#3]
  | .fildM32i _ _ => [7#3]
  | .fildM64i _ _ => [7#3]
  | .fbld _ _ => [7#3]
  | .fldz _ => [7#3]
  | .fld1 _ => [7#3]
  | .fldpi _ => [7#3]
  | .fldl2t _ => [7#3]
  | .fldl2e _ => [7#3]
  | .fldlg2 _ => [7#3]
  | .fldln2 _ => [7#3]
  | .fxtract _ => [7#3]
  | .fsincos _ => [7#3]
  | .fptan _ => [7#3]
  | .fdecstp _ => [7#3]
  | .fstpM32 _ _ => [1#3]
  | .fstpM64 _ _ => [1#3]
  | .fstpM80 _ _ => [1#3]
  | .fistpM16i _ _ => [1#3]
  | .fistpM32i _ _ => [1#3]
  | .fistpM64i _ _ => [1#3]
  | .fbstp _ _ => [1#3]
  | .fstpSti _ _ => [1#3]
  | .faddp _ _ => [1#3]
  | .fmulp _ _ => [1#3]
  | .fsubp _ _ => [1#3]
  | .fsubrp _ _ => [1#3]
  | .fdivp _ _ => [1#3]
  | .fdivrp _ _ => [1#3]
  | .fcompM32 _ _ => [1#3]
  | .fcompM64 _ _ => [1#3]
  | .fcompSti _ _ => [1#3]
  | .fucomp _ _ => [1#3]
  | .ficompM16i _ _ => [1#3]
  | .ficompM32i _ _ => [1#3]
  | .fcomip _ _ => [1#3]
  | .fucomip _ _ => [1#3]
  | .fpatan _ => [1#3]
  | .fyl2x _ => [1#3]
  | .fyl2xp1 _ => [1#3]
  | .fincstp _ => [1#3]
  | .fcompp _ => [2#3]
  | .fucompp _ => [2#3]
  | i => if i.replacesState then allIndices else []

/-- The processor's XP1_DOMAIN goes no further than the documented one (R328). -/
def Params.xp1Documented (P : Params) : Bool :=
  Machine.cmpExt P.xp1Low (Machine.negate Machine.documentedXp1High) != .less &&
    Machine.cmpExt P.xp1High Machine.documentedXp1High != .greater

/-- The conditions an instruction may signal: its row of Table 31-23 (R425). Beyond the table, FIDIV overflows under
reduced precision (R256), the FCOMI family signals #D where FCOMI_SIGNALS_D (R7), and FYL2XP1 can overflow where XP1_DOMAIN
goes further than the documented one (R328). -/
def Instr.signals (P : Params) : Instr → List Machine.Cond
  | .faddM32 _ _ => [.isUnder, .isOver, .ia, .d, .o, .u, .p]
  | .fmulM32 _ _ => [.isUnder, .isOver, .ia, .d, .o, .u, .p]
  | .fcomM32 _ _ => [.isUnder, .isOver, .ia, .d]
  | .fcompM32 _ _ => [.isUnder, .isOver, .ia, .d]
  | .fsubM32 _ _ => [.isUnder, .isOver, .ia, .d, .o, .u, .p]
  | .fsubrM32 _ _ => [.isUnder, .isOver, .ia, .d, .o, .u, .p]
  | .fdivM32 _ _ => [.isUnder, .isOver, .ia, .d, .z, .o, .u, .p]
  | .fdivrM32 _ _ => [.isUnder, .isOver, .ia, .d, .z, .o, .u, .p]
  | .faddSt0Sti _ _ => [.isUnder, .isOver, .ia, .d, .o, .u, .p]
  | .fmulSt0Sti _ _ => [.isUnder, .isOver, .ia, .d, .o, .u, .p]
  | .fcomSti _ _ => [.isUnder, .isOver, .ia, .d]
  | .fcompSti _ _ => [.isUnder, .isOver, .ia, .d]
  | .fsubSt0Sti _ _ => [.isUnder, .isOver, .ia, .d, .o, .u, .p]
  | .fsubrSt0Sti _ _ => [.isUnder, .isOver, .ia, .d, .o, .u, .p]
  | .fdivSt0Sti _ _ => [.isUnder, .isOver, .ia, .d, .z, .o, .u, .p]
  | .fdivrSt0Sti _ _ => [.isUnder, .isOver, .ia, .d, .z, .o, .u, .p]
  | .fldM32 _ _ => [.isUnder, .isOver, .ia, .d]
  | .fstM32 _ _ => [.isUnder, .isOver, .ia, .d, .o, .u, .p]
  | .fstpM32 _ _ => [.isUnder, .isOver, .ia, .d, .o, .u, .p]
  | .fldSti _ _ => [.isUnder, .isOver]
  | .fxch _ _ => [.isUnder, .isOver]
  | .fchs _ => [.isUnder, .isOver]
  | .fabs _ => [.isUnder, .isOver]
  | .ftst _ => [.isUnder, .isOver, .ia, .d]
  | .fld1 _ => [.isUnder, .isOver]
  | .fldl2t _ => [.isUnder, .isOver]
  | .fldl2e _ => [.isUnder, .isOver]
  | .fldpi _ => [.isUnder, .isOver]
  | .fldlg2 _ => [.isUnder, .isOver]
  | .fldln2 _ => [.isUnder, .isOver]
  | .fldz _ => [.isUnder, .isOver]
  | .f2xm1 _ => [.isUnder, .isOver, .ia, .d, .u, .p]
  | .fyl2x _ => [.isUnder, .isOver, .ia, .d, .z, .o, .u, .p]
  | .fptan _ => [.isUnder, .isOver, .ia, .d, .u, .p]
  | .fpatan _ => [.isUnder, .isOver, .ia, .d, .u, .p]
  | .fxtract _ => [.isUnder, .isOver, .ia, .d, .z]
  | .fprem1 _ => [.isUnder, .isOver, .ia, .d, .u]
  | .fprem _ => [.isUnder, .isOver, .ia, .d, .u]
  | .fyl2xp1 _ => [.isUnder, .isOver, .ia, .d, .u, .p] ++ if P.xp1Documented then [] else [.o]
  | .fsqrt _ => [.isUnder, .isOver, .ia, .d, .p]
  | .fsincos _ => [.isUnder, .isOver, .ia, .d, .u, .p]
  | .frndint _ => [.isUnder, .isOver, .ia, .d, .p]
  | .fscale _ => [.isUnder, .isOver, .ia, .d, .o, .u, .p]
  | .fsin _ => [.isUnder, .isOver, .ia, .d, .u, .p]
  | .fcos _ => [.isUnder, .isOver, .ia, .d, .u, .p]
  | .fiaddM32i _ _ => [.isUnder, .isOver, .ia, .d, .o, .u, .p]
  | .fimulM32i _ _ => [.isUnder, .isOver, .ia, .d, .o, .u, .p]
  | .ficomM32i _ _ => [.isUnder, .isOver, .ia, .d]
  | .ficompM32i _ _ => [.isUnder, .isOver, .ia, .d]
  | .fisubM32i _ _ => [.isUnder, .isOver, .ia, .d, .o, .u, .p]
  | .fisubrM32i _ _ => [.isUnder, .isOver, .ia, .d, .o, .u, .p]
  | .fidivM32i _ _ => [.isUnder, .isOver, .ia, .d, .z, .o, .u, .p]
  | .fidivrM32i _ _ => [.isUnder, .isOver, .ia, .d, .z, .o, .u, .p]
  | .fcmovb _ _ => [.isUnder, .isOver]
  | .fcmove _ _ => [.isUnder, .isOver]
  | .fcmovbe _ _ => [.isUnder, .isOver]
  | .fcmovu _ _ => [.isUnder, .isOver]
  | .fucompp _ => [.isUnder, .isOver, .ia, .d]
  | .fildM32i _ _ => [.isUnder, .isOver]
  | .fistM32i _ _ => [.isUnder, .isOver, .ia, .p]
  | .fistpM32i _ _ => [.isUnder, .isOver, .ia, .p]
  | .fldM80 _ _ => [.isUnder, .isOver]
  | .fstpM80 _ _ => [.isUnder, .isOver]
  | .fcmovnb _ _ => [.isUnder, .isOver]
  | .fcmovne _ _ => [.isUnder, .isOver]
  | .fcmovnbe _ _ => [.isUnder, .isOver]
  | .fcmovnu _ _ => [.isUnder, .isOver]
  | .fucomi _ _ => [.isUnder, .isOver, .ia] ++ if P.fcomiSignalsD then [.d] else []
  | .fcomi _ _ => [.isUnder, .isOver, .ia] ++ if P.fcomiSignalsD then [.d] else []
  | .faddM64 _ _ => [.isUnder, .isOver, .ia, .d, .o, .u, .p]
  | .fmulM64 _ _ => [.isUnder, .isOver, .ia, .d, .o, .u, .p]
  | .fcomM64 _ _ => [.isUnder, .isOver, .ia, .d]
  | .fcompM64 _ _ => [.isUnder, .isOver, .ia, .d]
  | .fsubM64 _ _ => [.isUnder, .isOver, .ia, .d, .o, .u, .p]
  | .fsubrM64 _ _ => [.isUnder, .isOver, .ia, .d, .o, .u, .p]
  | .fdivM64 _ _ => [.isUnder, .isOver, .ia, .d, .z, .o, .u, .p]
  | .fdivrM64 _ _ => [.isUnder, .isOver, .ia, .d, .z, .o, .u, .p]
  | .faddStiSt0 _ _ => [.isUnder, .isOver, .ia, .d, .o, .u, .p]
  | .fmulStiSt0 _ _ => [.isUnder, .isOver, .ia, .d, .o, .u, .p]
  | .fsubrStiSt0 _ _ => [.isUnder, .isOver, .ia, .d, .o, .u, .p]
  | .fsubStiSt0 _ _ => [.isUnder, .isOver, .ia, .d, .o, .u, .p]
  | .fdivrStiSt0 _ _ => [.isUnder, .isOver, .ia, .d, .z, .o, .u, .p]
  | .fdivStiSt0 _ _ => [.isUnder, .isOver, .ia, .d, .z, .o, .u, .p]
  | .fldM64 _ _ => [.isUnder, .isOver, .ia, .d]
  | .fstM64 _ _ => [.isUnder, .isOver, .ia, .d, .o, .u, .p]
  | .fstpM64 _ _ => [.isUnder, .isOver, .ia, .d, .o, .u, .p]
  | .fstSti _ _ => [.isUnder, .isOver]
  | .fstpSti _ _ => [.isUnder, .isOver]
  | .fucom _ _ => [.isUnder, .isOver, .ia, .d]
  | .fucomp _ _ => [.isUnder, .isOver, .ia, .d]
  | .fiaddM16i _ _ => [.isUnder, .isOver, .ia, .d, .o, .u, .p]
  | .fimulM16i _ _ => [.isUnder, .isOver, .ia, .d, .o, .u, .p]
  | .ficomM16i _ _ => [.isUnder, .isOver, .ia, .d]
  | .ficompM16i _ _ => [.isUnder, .isOver, .ia, .d]
  | .fisubM16i _ _ => [.isUnder, .isOver, .ia, .d, .o, .u, .p]
  | .fisubrM16i _ _ => [.isUnder, .isOver, .ia, .d, .o, .u, .p]
  | .fidivM16i _ _ => [.isUnder, .isOver, .ia, .d, .z, .o, .u, .p]
  | .fidivrM16i _ _ => [.isUnder, .isOver, .ia, .d, .z, .o, .u, .p]
  | .faddp _ _ => [.isUnder, .isOver, .ia, .d, .o, .u, .p]
  | .fmulp _ _ => [.isUnder, .isOver, .ia, .d, .o, .u, .p]
  | .fcompp _ => [.isUnder, .isOver, .ia, .d]
  | .fsubrp _ _ => [.isUnder, .isOver, .ia, .d, .o, .u, .p]
  | .fsubp _ _ => [.isUnder, .isOver, .ia, .d, .o, .u, .p]
  | .fdivrp _ _ => [.isUnder, .isOver, .ia, .d, .z, .o, .u, .p]
  | .fdivp _ _ => [.isUnder, .isOver, .ia, .d, .z, .o, .u, .p]
  | .fildM16i _ _ => [.isUnder, .isOver]
  | .fistM16i _ _ => [.isUnder, .isOver, .ia, .p]
  | .fistpM16i _ _ => [.isUnder, .isOver, .ia, .p]
  | .fbld _ _ => [.isUnder, .isOver]
  | .fildM64i _ _ => [.isUnder, .isOver]
  | .fbstp _ _ => [.isUnder, .isOver, .ia, .p]
  | .fistpM64i _ _ => [.isUnder, .isOver, .ia, .p]
  | .fucomip _ _ => [.isUnder, .isOver, .ia] ++ if P.fcomiSignalsD then [.d] else []
  | .fcomip _ _ => [.isUnder, .isOver, .ia] ++ if P.fcomiSignalsD then [.d] else []
  | _ => []

end Sys2Proof

namespace Sys2Proof.Machine

/-! ### What an instruction leaves and what it writes -/

/-- The state outside the FPU that an instruction leaves, the event it reports included. -/
structure HostKept (s t : State) : Prop where
  gprs : t.gprs = s.gprs
  segs : t.segs = s.segs
  eflags : t.eflags = s.eflags
  ne : t.ne = s.ne
  mode : t.mode = s.mode
  code32 : t.code32 = s.code32
  ignne : t.ignne = s.ignne
  params : t.params = s.params
  event : t.event = s.event

/-- Every byte of memory is as before. -/
def MemKept (s t : State) : Prop := ∀ a, t.byte a = s.byte a

/-- The `n` bytes at `a` are those of `v`, least significant first (R72), and every other byte is as before. -/
structure MemStored (a n v : Nat) (s t : State) : Prop where
  inside : ∀ k, k < n → t.byte (a + k) = BitVec.ofNat 8 (v >>> (8 * k))
  outside : ∀ b, b < a ∨ a + n ≤ b → t.byte b = s.byte b

/-- FIP, FDP and FOP are as before (R46). -/
structure PointersKept (s t : State) : Prop where
  fip : t.fip = s.fip
  fdp : t.fdp = s.fdp
  fop : t.fop = s.fop

/-- A non-control instruction ran to its end: it recorded its pointers (R47; without a memory operand FDP is not fixed,
U2), left the control word and the host, and the host's instruction pointer stands after it (R52). -/
structure Ran (i : Instr) (operand : Option FarPtr) (s t : State) : Prop where
  fip : t.fip = s.here
  fdp : ∀ q, operand = some q → t.fdp = q
  fop : t.fop = i.fop
  cw : t.cw = s.cw
  eip : t.eip = s.eip + BitVec.ofNat 32 i.length
  host : HostKept s t

/-- A control instruction ran to its end: the pointers stay (R46) and the host's instruction pointer stands after it. -/
structure RanControl (i : Instr) (s t : State) : Prop where
  pointers : PointersKept s t
  eip : t.eip = s.eip + BitVec.ofNat 32 i.length
  host : HostKept s t

/-- The exception flags and SF (R32, R35). -/
def StatusWord.exceptions (w : StatusWord) : List Bool := [w.ie, w.de, w.ze, w.oe, w.ue, w.pe, w.sf]

/-- The flags of the conditions `cs` became 1, every other exception flag is as before, and ES, B and FERR# follow: they
change only where one of `cs` is unmasked (R33, R34, R405, R418). -/
structure Flagged (cs : List Cond) (s t : State) : Prop where
  flags : t.sw.exceptions = (cs.foldl StatusWord.setFlag s.sw).exceptions
  es : t.sw.es = (s.sw.es || cs.any fun c => !s.masked c)
  busy : t.sw.b = (s.sw.b || cs.any fun c => !s.masked c)
  ferr : t.ferr = if cs.any (fun c => !s.masked c) then s.ferrPending else s.ferr

/-- The registers of the physical numbers outside `ks` keep contents and tag. -/
def OthersKept (ks : List (BitVec 3)) (s t : State) : Prop :=
  ∀ k : BitVec 3, k ∉ ks → t.regs.get k.toFin = s.regs.get k.toFin ∧ t.tags.get k.toFin = s.tags.get k.toFin

/-- TOP and every register with its tag are as before. -/
structure StackKept (s t : State) : Prop where
  top : t.sw.top = s.sw.top
  regs : t.regs = s.regs
  tags : t.tags = s.tags

/-- A push of `v` (R180), and nothing else of the stack. -/
structure Pushed (v : Ext) (s t : State) : Prop where
  top : t.sw.top = s.sw.top - 1#3
  value : t.st 0#3 = v
  tag : t.stTag 0#3 = tagOf v
  others : OthersKept [s.sw.top - 1#3] s t

/-- A write of `v` to ST(i) (R41), and nothing else of the stack. -/
structure Wrote (i : StIdx) (v : Ext) (s t : State) : Prop where
  top : t.sw.top = s.sw.top
  value : t.st i = v
  tag : t.stTag i = tagOf v
  others : OthersKept [s.sw.top + i] s t

/-- One pop (R181): the register at the top keeps its contents and is empty, and nothing else of the stack changes. -/
structure Popped (s t : State) : Prop where
  top : t.sw.top = s.sw.top + 1#3
  regs : t.regs = s.regs
  tag : t.tags.get s.sw.top.toFin = .empty
  others : OthersKept [s.sw.top] s t

/-- A write of `v` to ST(i), then a pop: where i is 0 the register written is the one freed. -/
structure WrotePopped (i : StIdx) (v : Ext) (s t : State) : Prop where
  top : t.sw.top = s.sw.top + 1#3
  value : t.regs.get (s.sw.top + i).toFin = v
  tag : i ≠ 0#3 → t.tags.get (s.sw.top + i).toFin = tagOf v
  freed : t.tags.get s.sw.top.toFin = .empty
  top_value : i ≠ 0#3 → t.regs.get s.sw.top.toFin = s.regs.get s.sw.top.toFin
  others : OthersKept [s.sw.top + i, s.sw.top] s t

/-- ST(0) written, then a push: the source register holds `v` and the new top `w`. -/
structure WrotePushed (v w : Ext) (s t : State) : Prop where
  top : t.sw.top = s.sw.top - 1#3
  value : t.st 1#3 = v
  tag : t.stTag 1#3 = tagOf v
  pushed : t.st 0#3 = w
  pushed_tag : t.stTag 0#3 = tagOf w
  others : OthersKept [s.sw.top, s.sw.top - 1#3] s t

/-- The result of an arithmetic instruction at its destination, with its pop where it has one (R241). -/
def Delivered (d : Dest) (v : Ext) (s t : State) : Prop :=
  if d.pop then WrotePopped d.i v s t else Wrote d.i v s t

/-- `i` answers a next state, of which `P` holds. -/
def Completes (i : Instr) (s : State) (P : State → Prop) : Prop := ∃ t, exec i s = .next t ∧ P t

/-- The response to a condition (R172, R405): its flag is set; masked, `done` holds of the state the instruction leaves;
unmasked, it stops with the stack as it was. Memory stays. -/
def Responds (i : Instr) (operand : Option FarPtr) (s : State) (c : Cond) (done : State → Prop) : Prop :=
  Completes i s fun t =>
    Ran i operand s t ∧ MemKept s t ∧ Flagged [c] s t ∧ if s.masked c then done t else StackKept s t

/-- The exception flags, ES, B, C1 and FERR# are those of `u`. -/
structure Reports (u t : State) : Prop where
  flags : t.sw.exceptions = u.sw.exceptions
  es : t.sw.es = u.sw.es
  busy : t.sw.b = u.sw.b
  c1 : t.sw.c1 = u.sw.c1
  ferr : t.ferr = u.ferr

/-- `n` pops of a compare (R181, R293 to R300): contents and the other tags stay. -/
structure PoppedN (n : Nat) (s t : State) : Prop where
  top : t.sw.top = s.sw.top + BitVec.ofNat 3 n
  regs : t.regs = s.regs
  tags : ∀ k : BitVec 3, t.tags.get k.toFin = if (k - s.sw.top).toNat < n then .empty else s.tags.get k.toFin

/-- The result of an instruction of `registerOps` at its destination; without one, at ST(0) and again pushed. -/
def DeliveredTo (d : Option Dest) (v : Ext) (s t : State) : Prop :=
  match d with
  | some d => Delivered d v s t
  | none => WrotePushed v v s t

/-- The arithmetic instructions on registers alone, but those of R240, with their sources in the order of R165 and their
destination; none for FXTRACT, FPTAN and FSINCOS, which write ST(0) and push a second result. -/
def registerOps (p : List Prefix) : List (Instr × List StIdx × Option Dest) :=
  [(.fsqrt p, [0#3], some st0), (.frndint p, [0#3], some st0), (.fprem p, [0#3, 1#3], some st0),
    (.fprem1 p, [0#3, 1#3], some st0), (.fscale p, [0#3, 1#3], some st0), (.fsin p, [0#3], some st0),
    (.fcos p, [0#3], some st0), (.f2xm1 p, [0#3], some st0), (.fpatan p, [1#3, 0#3], some st1Pop),
    (.fyl2x p, [1#3, 0#3], some st1Pop), (.fyl2xp1 p, [1#3, 0#3], some st1Pop), (.fxtract p, [0#3], none),
    (.fptan p, [0#3], none), (.fsincos p, [0#3], none)]

/-- Numbers x in ST(0) and y in ST(1) that an instruction of `registerOps` answers with an invalid operation or a zero divide,
which come before a denormal operand (R172; R262 to R266, R321 to R330). -/
def rejects (x y : Ext) : Instr → Bool
  | .fsqrt _ => signOf x && !isZero x
  | .fprem _ => isInf x || isZero y
  | .fprem1 _ => isInf x || isZero y
  | .fxtract _ => isZero x
  | .fscale _ => (isZero x && y == infinity false) || (isInf x && y == infinity true)
  | .fsin _ => isInf x
  | .fcos _ => isInf x
  | .fptan _ => isInf x
  | .fsincos _ => isInf x
  | .fyl2x _ =>
    (signOf x && !isZero x) || (isZero x && !isInf y) || (cmpExt x one == .equal && isInf y) || (isInf x && isZero y)
  | .fyl2xp1 _ => cmpExt x (negate one) == .less || (isZero x && isInf y)
  | _ => false

/-- The NaN that one or two sources give (R164, R165). -/
def State.sourceNan (s : State) : List StIdx → Ext
  | [i] => quiet (s.st i)
  | [i, j] => nanResult (s.st i) (s.st j)
  | _ => realIndefinite

/-- The compares that report in the status word: the instruction, its memory operand's pointer and bytes, the operand
compared with ST(0), the kind of R291, and how often it pops (R293 to R301). -/
def statusCompares (p : List Prefix) (m : MemForm) (j : StIdx) (s : State) :
    List (Instr × Option FarPtr × Nat × Operand × CompareKind × Nat) :=
  let q := some (s.operandPtr p m)
  let a := s.addr m
  [(.fcomM32 p m, q, 4, s.single a, .ordered, 0), (.fcomM64 p m, q, 8, s.double a, .ordered, 0),
    (.fcomSti p j, none, 0, s.stOperand j, .ordered, 0), (.fcompM32 p m, q, 4, s.single a, .ordered, 1),
    (.fcompM64 p m, q, 8, s.double a, .ordered, 1), (.fcompSti p j, none, 0, s.stOperand j, .ordered, 1),
    (.fcompp p, none, 0, s.stOperand 1#3, .ordered, 2), (.fucom p j, none, 0, s.stOperand j, .unordered, 0),
    (.fucomp p j, none, 0, s.stOperand j, .unordered, 1), (.fucompp p, none, 0, s.stOperand 1#3, .unordered, 2),
    (.ficomM16i p m, q, 2, s.int a 2, .ordered, 0), (.ficomM32i p m, q, 4, s.int a 4, .ordered, 0),
    (.ficompM16i p m, q, 2, s.int a 2, .ordered, 1), (.ficompM32i p m, q, 4, s.int a 4, .ordered, 1),
    (.ftst p, none, 0, { val := zero false, empty := false, denormal := false }, .ordered, 0)]

/-- The operands make the relation of the kind invalid (R291). -/
def invalidCompare (kind : CompareKind) (a b : Ext) : Bool :=
  isUnsupported a || isUnsupported b || classOf a == .snan || classOf b == .snan ||
    (kind == .ordered && (isNan a || isNan b))

/-- The compares that report in EFLAGS, their kind, and whether they pop (R304 to R307). -/
def eflagsCompares (p : List Prefix) (j : StIdx) : List (Instr × CompareKind × Bool) :=
  [(.fcomi p j, .ordered, false), (.fcomip p j, .ordered, true), (.fucomi p j, .unordered, false),
    (.fucomip p j, .unordered, true)]

/-- The stores of ST(0) rounded to a real format: the bytes, the format, its encoding, and whether they pop (R204,
R206). -/
def realStores (p : List Prefix) (m : MemForm) : List (Instr × Nat × Fmt × (RealValue → Nat) × Bool) :=
  [(.fstM32 p m, 4, fmtSingle, (fun x => (singleOf x).toNat), false),
    (.fstpM32 p m, 4, fmtSingle, (fun x => (singleOf x).toNat), true),
    (.fstM64 p m, 8, fmtDouble, (fun x => (doubleOf x).toNat), false),
    (.fstpM64 p m, 8, fmtDouble, (fun x => (doubleOf x).toNat), true)]

/-- The stores of ST(0) as an integer: the bytes, and whether they pop (R210, R211). -/
def integerStores (p : List Prefix) (m : MemForm) : List (Instr × Nat × Bool) :=
  [(.fistM16i p m, 2, false), (.fistM32i p m, 4, false), (.fistpM16i p m, 2, true), (.fistpM32i p m, 4, true),
    (.fistpM64i p m, 8, true)]

/-- FCMOVcc with their conditions on EFLAGS (R212 to R219). -/
def conditionalMoves (p : List Prefix) (i : StIdx) (f : Eflags) : List (Instr × Bool) :=
  [(.fcmovb p i, f.cf), (.fcmovnb p i, !f.cf), (.fcmove p i, f.zf), (.fcmovne p i, !f.zf),
    (.fcmovbe p i, f.cf || f.zf), (.fcmovnbe p i, !(f.cf || f.zf)), (.fcmovu p i, f.pf), (.fcmovnu p i, !f.pf)]

/-! ### The environment image by its byte offsets (R377 to R380) -/

/-- The 16 bits at byte offset `o` of the image at `a`. -/
def State.image16 (s : State) (a o : Nat) : Word16 := BitVec.ofNat 16 (s.read (a + o) 2)

/-- The 32 bits at byte offset `o` of the image at `a`. -/
def State.image32 (s : State) (a o : Nat) : Word32 := BitVec.ofNat 32 (s.read (a + o) 4)

/-- The image of format `f` at `a` in `t` shows these registers, the pointers as R377 to R380 place them. -/
def ImageShows (f : ImageFormat) (a : Nat) (cw sw tw : Word16) (fip fdp : FarPtr) (fop : BitVec 11) (t : State) : Prop :=
  match f with
  | .protected32 =>
    t.image16 a 0 = cw ∧ t.image16 a 4 = sw ∧ t.image16 a 8 = tw ∧ t.image32 a 12 = fip.extractLsb' 0 32 ∧
      t.image16 a 16 = fip.extractLsb' 32 16 ∧ t.image16 a 18 = 0#5 ++ fop ∧
      t.image32 a 20 = fdp.extractLsb' 0 32 ∧ t.image16 a 24 = fdp.extractLsb' 32 16
  | .real32 =>
    t.image16 a 0 = cw ∧ t.image16 a 4 = sw ∧ t.image16 a 8 = tw ∧
      t.image16 a 12 = (linear fip).extractLsb' 0 16 ∧
      t.image32 a 16 = 0#4 ++ (linear fip).extractLsb' 16 16 ++ 0#1 ++ fop ∧
      t.image16 a 20 = (linear fdp).extractLsb' 0 16 ∧
      t.image32 a 24 = 0#4 ++ (linear fdp).extractLsb' 16 16 ++ 0#12
  | .protected16 =>
    t.image16 a 0 = cw ∧ t.image16 a 2 = sw ∧ t.image16 a 4 = tw ∧ t.image16 a 6 = fip.extractLsb' 0 16 ∧
      t.image16 a 8 = fip.extractLsb' 32 16 ∧ t.image16 a 10 = fdp.extractLsb' 0 16 ∧
      t.image16 a 12 = fdp.extractLsb' 32 16
  | .real16 =>
    t.image16 a 0 = cw ∧ t.image16 a 2 = sw ∧ t.image16 a 4 = tw ∧
      t.image16 a 6 = (linear fip).extractLsb' 0 16 ∧
      t.image16 a 8 = (linear fip).extractLsb' 16 4 ++ 0#1 ++ fop ∧
      t.image16 a 10 = (linear fdp).extractLsb' 0 16 ∧ t.image16 a 12 = (linear fdp).extractLsb' 16 4 ++ 0#12

/-- What the image of format `f` at `a` in `s` holds, from the places of R377 to R380; the 16-bit protected format has no
opcode. -/
def ImageHolds (f : ImageFormat) (a : Nat) (s : State) (e : Env) : Prop :=
  match f with
  | .protected32 =>
    e.cw = s.image16 a 0 ∧ e.sw = s.image16 a 4 ∧ e.tw = s.image16 a 8 ∧
      e.fip = s.image16 a 16 ++ s.image32 a 12 ∧ e.fop = some ((s.image16 a 18).extractLsb' 0 11) ∧
      e.fdp = s.image16 a 24 ++ s.image32 a 20
  | .real32 =>
    e.cw = s.image16 a 0 ∧ e.sw = s.image16 a 4 ∧ e.tw = s.image16 a 8 ∧
      e.fip = 0#16 ++ ((s.image32 a 16).extractLsb' 12 16 ++ s.image16 a 12) ∧
      e.fop = some ((s.image32 a 16).extractLsb' 0 11) ∧
      e.fdp = 0#16 ++ ((s.image32 a 24).extractLsb' 12 16 ++ s.image16 a 20)
  | .protected16 =>
    e.cw = s.image16 a 0 ∧ e.sw = s.image16 a 2 ∧ e.tw = s.image16 a 4 ∧
      e.fip = s.image16 a 8 ++ (0#16 ++ s.image16 a 6) ∧ e.fop = none ∧
      e.fdp = s.image16 a 12 ++ (0#16 ++ s.image16 a 10)
  | .real16 =>
    e.cw = s.image16 a 0 ∧ e.sw = s.image16 a 2 ∧ e.tw = s.image16 a 4 ∧
      e.fip = 0#28 ++ ((s.image16 a 8).extractLsb' 12 4 ++ s.image16 a 6) ∧
      e.fop = some ((s.image16 a 8).extractLsb' 0 11) ∧
      e.fdp = 0#28 ++ ((s.image16 a 12).extractLsb' 12 4 ++ s.image16 a 10)

/-! ### The forms of the basic arithmetic instructions (R240) -/

/-- The six operations of R240. -/
inductive ArithKind where
  | add
  | mul
  | sub
  | subr
  | div
  | divr
deriving DecidableEq, Repr

/-- The operation on the operands in the order the kind gives them: destination and source, or the reverse. -/
def ArithKind.result (k : ArithKind) (rc : RoundMode) (a b : Ext) : OpResult :=
  match k with
  | .add => binOp .add rc a b
  | .mul => binOp .mul rc a b
  | .sub => binOp .sub rc a b
  | .subr => binOp .sub rc b a
  | .div => binOp .div rc a b
  | .divr => binOp .div rc b a

/-- `Fop m32real`. -/
def ArithKind.single (k : ArithKind) (p : List Prefix) (m : MemForm) : Instr :=
  match k with
  | .add => .faddM32 p m
  | .mul => .fmulM32 p m
  | .sub => .fsubM32 p m
  | .subr => .fsubrM32 p m
  | .div => .fdivM32 p m
  | .divr => .fdivrM32 p m

/-- `Fop m64real`. -/
def ArithKind.double (k : ArithKind) (p : List Prefix) (m : MemForm) : Instr :=
  match k with
  | .add => .faddM64 p m
  | .mul => .fmulM64 p m
  | .sub => .fsubM64 p m
  | .subr => .fsubrM64 p m
  | .div => .fdivM64 p m
  | .divr => .fdivrM64 p m

/-- `FIop m16int`. -/
def ArithKind.int16 (k : ArithKind) (p : List Prefix) (m : MemForm) : Instr :=
  match k with
  | .add => .fiaddM16i p m
  | .mul => .fimulM16i p m
  | .sub => .fisubM16i p m
  | .subr => .fisubrM16i p m
  | .div => .fidivM16i p m
  | .divr => .fidivrM16i p m

/-- `FIop m32int`. -/
def ArithKind.int32 (k : ArithKind) (p : List Prefix) (m : MemForm) : Instr :=
  match k with
  | .add => .fiaddM32i p m
  | .mul => .fimulM32i p m
  | .sub => .fisubM32i p m
  | .subr => .fisubrM32i p m
  | .div => .fidivM32i p m
  | .divr => .fidivrM32i p m

/-- `Fop ST(0), ST(i)`. -/
def ArithKind.toSt0 (k : ArithKind) (p : List Prefix) (i : StIdx) : Instr :=
  match k with
  | .add => .faddSt0Sti p i
  | .mul => .fmulSt0Sti p i
  | .sub => .fsubSt0Sti p i
  | .subr => .fsubrSt0Sti p i
  | .div => .fdivSt0Sti p i
  | .divr => .fdivrSt0Sti p i

/-- `Fop ST(i), ST(0)`. -/
def ArithKind.toSti (k : ArithKind) (p : List Prefix) (i : StIdx) : Instr :=
  match k with
  | .add => .faddStiSt0 p i
  | .mul => .fmulStiSt0 p i
  | .sub => .fsubStiSt0 p i
  | .subr => .fsubrStiSt0 p i
  | .div => .fdivStiSt0 p i
  | .divr => .fdivrStiSt0 p i

/-- `FopP ST(i), ST(0)`. -/
def ArithKind.toStiPop (k : ArithKind) (p : List Prefix) (i : StIdx) : Instr :=
  match k with
  | .add => .faddp p i
  | .mul => .fmulp p i
  | .sub => .fsubp p i
  | .subr => .fsubrp p i
  | .div => .fdivp p i
  | .divr => .fdivrp p i

/-- A value that R184 and R185 speak of: supported and no NaN. -/
def isNumber (v : Ext) : Bool := !isUnsupported v && !isNan v

/-- The exponent of a rounded result lies within the limits of a format: neither overflow nor underflow (R159, R161). -/
def InRange (f : Fmt) (r : Rounded) : Prop := f.emin ≤ r.exponent ∧ r.exponent ≤ f.emax

/-- The conditions a finite result signals: a denormal operand's and the inexact one's (R172, R158). -/
def resultConds (denormal inexact : Bool) : List Cond := (if denormal then [.d] else []) ++ if inexact then [.p] else []

/-- The forms of the basic arithmetic instructions in a state: the instruction, its memory operand's pointer, the operands
(the destination's first), the precision of the result and the destination (R240, R155). -/
inductive ArithForm (k : ArithKind) (s : State) :
    Instr → Option FarPtr → Operand → Operand → Option Nat → Dest → Prop where
  | single (p : List Prefix) (m : MemForm) (h : s.inRange m 4 = true) :
    ArithForm k s (k.single p m) (some (s.operandPtr p m)) (s.stOperand 0#3) (s.single (s.addr m)) (precOf s.cw) st0
  | double (p : List Prefix) (m : MemForm) (h : s.inRange m 8 = true) :
    ArithForm k s (k.double p m) (some (s.operandPtr p m)) (s.stOperand 0#3) (s.double (s.addr m)) (precOf s.cw) st0
  | int16 (p : List Prefix) (m : MemForm) (h : s.inRange m 2 = true) :
    ArithForm k s (k.int16 p m) (some (s.operandPtr p m)) (s.stOperand 0#3) (s.int (s.addr m) 2) s.intPrec st0
  | int32 (p : List Prefix) (m : MemForm) (h : s.inRange m 4 = true) :
    ArithForm k s (k.int32 p m) (some (s.operandPtr p m)) (s.stOperand 0#3) (s.int (s.addr m) 4) s.intPrec st0
  | toSt0 (p : List Prefix) (i : StIdx) :
    ArithForm k s (k.toSt0 p i) none (s.stOperand 0#3) (s.stOperand i) (precOf s.cw) st0
  | toSti (p : List Prefix) (i : StIdx) :
    ArithForm k s (k.toSti p i) none (s.stOperand i) (s.stOperand 0#3) (precOf s.cw) { i := i, pop := false }
  | toStiPop (p : List Prefix) (i : StIdx) :
    ArithForm k s (k.toStiPop p i) none (s.stOperand i) (s.stOperand 0#3) (precOf s.cw) { i := i, pop := true }

/-- The candidate RoundGrid of R156 takes for the magnitude `x > 0` on the spacing `u`: `m * u`; between two equally near
ones the even one. -/
def IsRounded {K : Type} [Field K] [LinearOrder K] (rc : RoundMode) (neg : Bool) (x u : K) (m : Nat) : Prop :=
  match rc with
  | .nearest => |x - m * u| ≤ u / 2 ∧ (|x - m * u| = u / 2 → m % 2 = 0)
  | .down => if neg then x ≤ m * u ∧ m * u < x + u else m * u ≤ x ∧ x < m * u + u
  | .up => if neg then m * u ≤ x ∧ x < m * u + u else x ≤ m * u ∧ m * u < x + u
  | .zero => m * u ≤ x ∧ x < m * u + u

end Sys2Proof.Machine
end

