-- ==== Sys2Proof/Certificates/Slice0/Obligations.lean ====
section
/-! DEFINITION. The statements for the provers. -/

open Sys2Proof Sys2Proof.Machine

/-! ### Encoding and the step -/

/-- Decoding the bytes of a well-formed instruction gives that instruction and leaves nothing (R101 to R107, R123). -/
def Obligations.DecodeOfEncode : Prop :=
  ∀ (code32 : Bool) (i : Instr), i.wellFormed code32 = true → decode code32 (encode i) = .ok (i, [])

/-- What the decoder accepts is a well-formed instruction, and the bytes it took are that instruction's encoding: no
byte is dropped and no two instructions share an encoding (R123). -/
def Obligations.DecodedBytesAreTheEncoding : Prop :=
  ∀ (code32 : Bool) (bs : List Byte) (i : Instr) (r : List Byte),
    decode code32 bs = .ok (i, r) → i.wellFormed code32 = true ∧ bs = encode i ++ r

/-- Words written out from the encoding tables decode to their instructions: `D8 C1`, `D9 05 00 10 00 00`, `DB E3`, `9B
DB E3`, `66 D9 35 00 20 00 00`, `DE F9` (R101, R107 to R114). The tables themselves are general knowledge in the spec,
its decision D1: PRESUMED, log entry 37. -/
def Obligations.DecodeWrittenWords : Prop :=
  decode true [0xD8, 0xC1] = .ok (.faddSt0Sti [] 1, []) ∧
  decode true [0xD9, 0x05, 0x00, 0x10, 0x00, 0x00] = .ok (.fldM32 [] (.abs 0x1000), []) ∧
  decode true [0xDB, 0xE3] = .ok (.fninit [], []) ∧
  decode true [0x9B, 0xDB, 0xE3] = .ok (.finit [], []) ∧
  decode true [0x66, 0xD9, 0x35, 0x00, 0x20, 0x00, 0x00] = .ok (.fnstenv [.opSize] (.abs 0x2000), []) ∧
  decode true [0xDE, 0xF9] = .ok (.fdivp [] 1, [])

/-- A step runs the instruction that the fetched bytes decode to, on the state with the last hand-over cleared (R52);
LOCK before an FPU instruction or WAIT raises the host's invalid-opcode exception with the address of the instruction,
and nothing else changes (R106). That it does so before any exception pending in ES is handed over is the model's choice
(log entry 53). The bytes are those at the linear address EIP whatever CS holds, the model's choice too: log entry
54. -/
def Obligations.StepRunsDecodedInstruction : Prop :=
  ∀ s : State, s.event.stops = false →
    (∀ (i : Instr) (r : List Byte), decode s.code32 s.fetch = .ok (i, r) → step s = exec i (s.withEvent .none)) ∧
      (decode s.code32 s.fetch = .error .lockPrefix →
        ∃ t, step s = .next t ∧ t.event = .invalidOpcode s.here ∧ t.withEvent s.event = s)

/-- Where memory holds the encoding of a well-formed instruction at EIP, a step runs it; a bare 9BH is WAIT unless a
non-waiting control instruction follows it (R107, R121, R52). That the bytes are those at the linear address EIP,
whatever CS holds, is the model's choice (DESIGN CHOICE, log entry 54), and that 9BH with a non-waiting instruction is
one step is DEDUCED, log entry 13. -/
def Obligations.StepRunsEncodedBytes : Prop :=
  ∀ (s : State) (i : Instr),
    s.event.stops = false → i.wellFormed s.code32 = true → s.eip.toNat + i.length ≤ memEnd →
    (∀ k, k < i.length → (encode i)[k]? = some (s.byte (s.eip.toNat + k))) →
    (i = .wait [] → decodeFused s.code32 (s.fetch.drop 1) = none) →
      step s = exec i (s.withEvent .none)

/-! ### The whole machine -/

/-- The state after reset satisfies the invariant. -/
def Obligations.ResetSatisfiesInvariant : Prop := State.reset.Inv

/-- Every step keeps the invariant: memory canonical, tags those of the contents (R41), ES the summary of flags and
masks (R33), B equal to ES (R34), FERR# deasserted while ES is 0 (R418). B and ES follow flags and masks by the spec's
decision D10, log entry 19, and FERR# by log entry 9. -/
def Obligations.StepKeepsInvariant : Prop := ∀ s t : State, s.Inv → step s = .next t → t.Inv

/-- The FPU right after reset holds column (b) of R55: the model's choice, log entry 2. -/
def Obligations.ResetValues : Prop :=
  State.reset.cw = 0x0040#16 ∧ State.reset.sw.toBits = 0#16 ∧ tagWord State.reset.tags = 0x5555#16 ∧
    (∀ k : Fin 8, State.reset.regs.get k = zero false) ∧ State.reset.fip = 0#48 ∧ State.reset.fdp = 0#48 ∧
    State.reset.fop = 0#11 ∧ State.reset.ferr = false

/-- Only the instructions that reinitialize, load or clear the status word clear an exception flag or SF: the flags are
sticky (R32, R35). -/
def Obligations.ExceptionFlagsAreSticky : Prop :=
  ∀ (i : Instr) (s t : State), i.clearsFlags = false → exec i s = .next t →
    (s.sw.ie = true → t.sw.ie = true) ∧ (s.sw.de = true → t.sw.de = true) ∧ (s.sw.ze = true → t.sw.ze = true) ∧
      (s.sw.oe = true → t.sw.oe = true) ∧ (s.sw.ue = true → t.sw.ue = true) ∧ (s.sw.pe = true → t.sw.pe = true) ∧
      (s.sw.sf = true → t.sw.sf = true)

/-- An instruction changes only the exception flags of the conditions it may signal, and SF only where #IS is among
them: those of its row of Table 31-23 (R425), and besides them three the table does not mark: #O of FIDIV (R256), #D of
the FCOMI family where the processor reports it (R7), and #O of FYL2XP1 where the processor's domain goes further than
the documented one (R328). So the transcendental instructions but FYL2X do not overflow, whatever NUMERICS gives within
its bounds. The third is DEDUCED, log entry 5. -/
def Obligations.FlagsChangeByTheTable : Prop :=
  ∀ (i : Instr) (s t : State), i.clearsFlags = false → exec i s = .next t →
    (∀ b, b < 6 → b ∉ (i.signals s.params).map Cond.maskBit → t.sw.exceptions[b]? = s.sw.exceptions[b]?) ∧
      (.isUnder ∉ i.signals s.params → t.sw.sf = s.sw.sf)

/-- Every byte of memory outside the bytes an instruction stores is as before; an instruction that stores nothing leaves
all of memory. -/
def Obligations.MemoryFrame : Prop :=
  ∀ (i : Instr) (s t : State), exec i s = .next t →
    ∀ b, (∀ a n, i.stored s = some (a, n) → b < a ∨ a + n ≤ b) → t.byte b = s.byte b

/-- Contents and tag of every register but the destinations, the one a push fills and those pops free are as before, and
TOP stays or moves as the instruction moves it (R180, R181). -/
def Obligations.StackFrame : Prop :=
  ∀ (i : Instr) (s t : State), exec i s = .next t →
    OthersKept (i.touches.map fun j => s.sw.top + j) s t ∧
      (t.sw.top = s.sw.top ∨ ∃ d ∈ i.topMoves, t.sw.top = s.sw.top + d)

/-- Only FSTSW AX and FNSTSW AX write a general register, AX (R49); only FCOMI and its kin write EFLAGS (R50); nothing
writes the rest of the host's state (R8); only the instructions that replace the state, FLDCW, FSTENV and FNSTENV write
the control word (R36). That the upper half of EAX stays is general knowledge in the spec: PRESUMED, log entry 56. -/
def Obligations.HostAndControlWordFrame : Prop :=
  ∀ (i : Instr) (s t : State), exec i s = .next t →
    t.segs = s.segs ∧ t.ne = s.ne ∧ t.mode = s.mode ∧ t.code32 = s.code32 ∧ t.ignne = s.ignne ∧ t.params = s.params ∧
      (i.writesAx = false → t.gprs = s.gprs) ∧ t.gprs = { s.gprs with eax := t.gprs.eax } ∧
      t.gprs.eax.extractLsb' 16 16 = s.gprs.eax.extractLsb' 16 16 ∧ (i.isFcomi = false → t.eflags = s.eflags) ∧
      (i.writesCw = false → t.cw = s.cw)

/-- The control instructions of R46 leave FIP, FDP and FOP; every other instruction that executes and does not replace
the state records its own address, opcode and memory operand (R44, R45, R47, R48). -/
def Obligations.PointersRecorded : Prop :=
  ∀ (i : Instr) (s t : State), exec i s = .next t →
    (i.keepsPointers = true → PointersKept s t) ∧
      (i.keepsPointers = false → i.replacesState = false → s.pending = .clear →
        t.fip = s.here ∧ t.fop = i.fop ∧ ∀ m, i.memForm = some m → t.fdp = s.operandPtr i.prefixes m)

/-! ### Exceptions -/

/-- Signal of R405: each condition sets its flags (a stack fault SF and C1 besides) and asks its mask; unmasked, ES and
B become 1; nothing else of the status word changes, and nothing outside it but FERR#, which may be asserted now where
NE is 0 and IGNNE# deasserted. -/
def Obligations.SignalSetsFlags : Prop :=
  (∀ w : StatusWord,
    w.setFlag .isUnder = { w with ie := true, sf := true, c1 := false } ∧
      w.setFlag .isOver = { w with ie := true, sf := true, c1 := true } ∧ w.setFlag .ia = { w with ie := true } ∧
      w.setFlag .d = { w with de := true } ∧ w.setFlag .z = { w with ze := true } ∧
      w.setFlag .o = { w with oe := true } ∧ w.setFlag .u = { w with ue := true } ∧
      w.setFlag .p = { w with pe := true }) ∧
  (∀ (s : State) (c : Cond) (n : Nat), (c, n) ∈
      [(Cond.isUnder, 0), (Cond.isOver, 0), (Cond.ia, 0), (Cond.d, 1), (Cond.z, 2), (Cond.o, 3), (Cond.u, 4),
        (Cond.p, 5)] →
    s.masked c = s.cw.getLsbD n) ∧
  ∀ (s : State) (c : Cond),
    (s.masked c = true → s.signal c = s.withSw (s.sw.setFlag c)) ∧
      (s.masked c = false →
        (s.signal c).sw = { s.sw.setFlag c with es := true, b := true } ∧
          (s.signal c).withSw s.sw = s.withFerr (s.signal c).ferr ∧
          (s.ferr = true → (s.signal c).ferr = true) ∧
          ((s.ne = true ∨ s.ignne = true) → (s.signal c).ferr = s.ferr))

/-- CheckPending at a waiting instruction while ES is 1: with NE set it hands vector 16 to the host with this
instruction's address; with NE clear and IGNNE# deasserted it asserts FERR# and freezes; nothing else of the instruction
happens. Where ES is 0, where IGNNE# is asserted with NE clear, and at a non-waiting instruction, nothing is handed over
(R351, R415, R417, R418, R419, R424). That FENI, FDISI and FSETPM are non-waiting is the model's reading, log entry 35
(D27). The freeze as a next state with FERR# asserted is the spec's decision D29: DEDUCED, log entry 8. That IGNNE# acts
only while NE is 0 is general knowledge in the spec: PRESUMED, log entry 56. -/
def Obligations.CheckPendingHandsOver : Prop :=
  ∀ (i : Instr) (s : State),
    (i.present s.params = true → i.nonWaiting = false → s.sw.es = true →
      (s.ne = true → exec i s = .next (s.withEvent (.mf s.here))) ∧
        (s.ne = false → s.ignne = false → exec i s = .next ((s.withFerr true).withEvent .frozen))) ∧
    (s.sw.es = false ∨ (s.ne = false ∧ s.ignne = true) ∨ i.nonWaiting = true →
      ∀ t, exec i s = .next t → t.event = s.event)

/-- The reserved encodings are refused by name (R116, U12), and so are FCMOVcc and the FCOMI family on a processor
without them. That the refusal comes before the wait check, so with an exception pending too, is the model's choice:
DESIGN CHOICE, log entry 46. -/
def Obligations.ReservedEncodingsRefused : Prop :=
  ∀ (i : Instr) (s : State), i.present s.params = false → exec i s = .refused .reservedEncoding

/-- The stops that are the model's choice. Every instruction with a memory operand, images included, faults when the
operand runs past the end of the offset space and no exception is pending (U13, log entry 11). PC = 01B is refused where
the basic arithmetic or FSQRT would round a number by it (U3, log entry 17). -/
def Obligations.PastEndAndReservedPrecisionStop : Prop :=
  (∀ (i : Instr) (m : MemForm) (s : State), i.memForm = some m → i.isReserved = false →
    (i.nonWaiting = false → s.pending = .clear) → s.inRange m (i.operandBytes s) = false →
      exec i s = .fault .operandPastEnd) ∧
  (∀ (k : ArithKind) (s : State) (ins : Instr) (q : Option FarPtr) (a b : Operand) (d : Dest) (x : Exact),
    ArithForm k s ins q a b none d → s.pending = .clear → a.empty = false → b.empty = false →
    isNumber a.val = true → isNumber b.val = true → ((a.denormal || b.denormal) = true → s.masked .d = true) →
    k.result (rcOf s.cw) a.val b.val = .number x → exec ins s = .refused .precisionReserved) ∧
  (∀ (p : List Prefix) (s : State), s.pending = .clear → s.stTag 0#3 ≠ .empty → precOf s.cw = none →
    isFiniteNonzero (s.st 0#3) = true → signOf (s.st 0#3) = false →
    (isDenormal (s.st 0#3) = true → s.masked .d = true) → exec (.fsqrt p) s = .refused .precisionReserved)

/-! ### Numbers -/

/-- RoundGrid of R156 for a quotient, and for a square root said of real numbers: the multiple of the spacing that the
rounding mode selects, the even one of two equally near, with the inexact bit where it differs from the value and the up
bit where it exceeds it in magnitude; and RoundP, the same on the grid of p significant bits. -/
def Obligations.RoundGridSelectsNeighbour : Prop :=
  (∀ (neg : Bool) (num den : Nat) (k q : Int) (rc : RoundMode), 0 < num → 0 < den →
    let x : ℚ := (num : ℚ) / den * (2 : ℚ) ^ k
    let r := roundGrid { neg := neg, mag := .ratio num den k } q rc
    r.q = q ∧ IsRounded rc neg x ((2 : ℚ) ^ q) r.n ∧ (r.inexact = true ↔ (r.n : ℚ) * (2 : ℚ) ^ q ≠ x) ∧
      (r.up = true ↔ x < (r.n : ℚ) * (2 : ℚ) ^ q) ∧
      ∀ (p : Nat) (e : Int), (2 : ℚ) ^ e ≤ x → x < (2 : ℚ) ^ (e + 1) →
        roundP { neg := neg, mag := .ratio num den k } p rc =
          roundGrid { neg := neg, mag := .ratio num den k } (e - p + 1) rc) ∧
  (∀ (neg : Bool) (num : Nat) (k q : Int) (rc : RoundMode), 0 < num →
    let x : ℝ := Real.sqrt num * (2 : ℝ) ^ k
    let r := roundGrid { neg := neg, mag := .root num k } q rc
    r.q = q ∧ IsRounded rc neg x ((2 : ℝ) ^ q) r.n ∧ (r.inexact = true ↔ (r.n : ℝ) * (2 : ℝ) ^ q ≠ x) ∧
      (r.up = true ↔ x < (r.n : ℝ) * (2 : ℝ) ^ q) ∧
      ∀ (p : Nat) (e : Int), (2 : ℝ) ^ e ≤ x → x < (2 : ℝ) ^ (e + 1) →
        roundP { neg := neg, mag := .root num k } p rc = roundGrid { neg := neg, mag := .root num k } (e - p + 1) rc)

/-- The register encoding of a finite value and its value are inverse: a normal or denormal value is the encoding of its
number, and a pseudo-denormal has the value of the normal number of exponent 1. The operand conversions are exact: a
finite single-real or double-real gives the number of its format, an integer of up to 64 bits its value, and a packed
decimal of eighteen digits, as FBSTP encodes it, the number its digits write. The store encodings are exact too: the
single-real or double-real stored of a number that the format holds reads back as that number with its sign, that of an
infinity as the infinity, and that of a NaN as the NaN less the fraction bits the format does not hold (R132, R133,
R135, R140, R146, R149, R151 to R154, R167). That a NaN keeps its upper fraction bits and sign, and the signs of integer
and decimal zeros, are general knowledge in the spec: PRESUMED, log entry 56. -/
def Obligations.FormatsEncodeTheirValues : Prop :=
  (∀ v : Ext, (classOf v = .normal ∨ classOf v = .denormal ∨ classOf v = .zero → extOfNum (valOf v) = v) ∧
    (classOf v = .pseudoDenormal → extOfNum (valOf v) = mkExt (signOf v) 1#15 (sigOf v))) ∧
  (∀ p : BitVec 32, p.extractLsb' 23 8 ≠ 0xFF#8 →
    ratOf (extOfSingle p) = (if p.getLsbD 31 then -1 else 1) *
      (if p.extractLsb' 23 8 = 0#8 then ((p.extractLsb' 0 23).toNat : ℚ) * (2 : ℚ) ^ (-149 : Int)
        else ((2 ^ 23 + (p.extractLsb' 0 23).toNat : Nat) : ℚ) * (2 : ℚ) ^ (((p.extractLsb' 23 8).toNat : Int) - 150))) ∧
  (∀ p : BitVec 64, p.extractLsb' 52 11 ≠ 0x7FF#11 →
    ratOf (extOfDouble p) = (if p.getLsbD 63 then -1 else 1) *
      (if p.extractLsb' 52 11 = 0#11 then ((p.extractLsb' 0 52).toNat : ℚ) * (2 : ℚ) ^ (-1074 : Int)
        else ((2 ^ 52 + (p.extractLsb' 0 52).toNat : Nat) : ℚ) * (2 : ℚ) ^ (((p.extractLsb' 52 11).toNat : Int) - 1075))) ∧
  (∀ x : Int, x.natAbs ≤ 2 ^ 64 - 1 → ratOf (extOfInt x) = x) ∧
  (∀ (neg : Bool) (n : Nat), n < 10 ^ 18 →
    extOfBcd (packedDecimal neg n) = some (extOfNum { neg := neg, n := n, k := 0 })) ∧
  (∀ (neg : Bool) (n m : Nat) (k e : Int), (n : ℚ) * (2 : ℚ) ^ k = m * (2 : ℚ) ^ e →
    (m < 2 ^ 24 → -149 ≤ e → e ≤ 104 →
      ratOf (extOfSingle (singleOf (.finite neg n k))) = (if neg then -1 else 1) * (m * (2 : ℚ) ^ e) ∧
        signOf (extOfSingle (singleOf (.finite neg n k))) = neg) ∧
    (m < 2 ^ 53 → -1074 ≤ e → e ≤ 971 →
      ratOf (extOfDouble (doubleOf (.finite neg n k))) = (if neg then -1 else 1) * (m * (2 : ℚ) ^ e) ∧
        signOf (extOfDouble (doubleOf (.finite neg n k))) = neg)) ∧
  (∀ neg : Bool, extOfSingle (singleOf (.infinite neg)) = infinity neg ∧
    extOfDouble (doubleOf (.infinite neg)) = infinity neg) ∧
  (∀ (neg : Bool) (m : BitVec 64), m.getLsbD 63 = true →
    extOfSingle (singleOf (.nan neg m)) = mkExt neg 0x7FFF#15 (m &&& 0xFFFFFF0000000000#64) ∧
      extOfDouble (doubleOf (.nan neg m)) = mkExt neg 0x7FFF#15 (m &&& 0xFFFFFFFFFFFFF800#64))

/-- The comparison of finite values is that of their numbers, an infinity lies beyond every finite value, and +0 equals
-0 (R138, R141, R185). -/
def Obligations.CompareOrdersValues : Prop :=
  ∀ a b : Ext, isNumber a = true → isNumber b = true →
    (isInf a = false → isInf b = false →
      cmpExt a b = if ratOf a < ratOf b then .less else if ratOf a = ratOf b then .equal else .greater) ∧
    (isInf a = true → isInf b = false → cmpExt a b = if signOf a then .less else .greater) ∧
    (isInf a = false → isInf b = true → cmpExt a b = if signOf b then .greater else .less) ∧
    (isInf a = true → isInf b = true →
      cmpExt a b = if signOf a = signOf b then .equal else if signOf a then .less else .greater)

/-- The NaN of Table 31-18: where an operand is a NaN the result is a QNaN, which is an operand or an operand quieted;
of an SNaN and a QNaN the QNaN, of two of a kind the one with the larger significand (R164, R165). -/
def Obligations.NanResultByTheTable : Prop :=
  ∀ a b : Ext, (isNan a = true ∨ isNan b = true) →
    classOf (nanResult a b) = .qnan ∧
      (nanResult a b = quiet a ∨ nanResult a b = quiet b) ∧
      (isNan b = false → nanResult a b = quiet a) ∧ (isNan a = false → nanResult a b = quiet b) ∧
      (classOf a = .qnan → classOf b = .snan → nanResult a b = a) ∧
      (classOf a = .snan → classOf b = .qnan → nanResult a b = b) ∧
      (classOf a = classOf b → (sigOf b).toNat < (sigOf a).toNat → nanResult a b = quiet a) ∧
      (classOf a = classOf b → (sigOf a).toNat < (sigOf b).toNat → nanResult a b = quiet b)

/-! ### Data transfer -/

/-- FLD m32real and FLD m64real push the converted operand when the register to be filled is empty. A denormal operand
sets DE, and is pushed only where it is masked; an SNaN sets IE, and is pushed quieted only where that is masked (R201).
-/
def Obligations.LoadRealPushes : Prop :=
  ∀ (p : List Prefix) (m : MemForm) (s : State), s.pending = .clear → s.stTag 7#3 = .empty →
    ∀ i n x, (i, n, x) ∈ [(Instr.fldM32 p m, 4, s.single (s.addr m)), (Instr.fldM64 p m, 8, s.double (s.addr m))] →
      s.inRange m n = true →
      (classOf x.val ≠ .snan → (x.denormal = true → s.masked .d = true) →
        Completes i s fun t =>
          Ran i (some (s.operandPtr p m)) s t ∧ MemKept s t ∧ Pushed x.val s t ∧ t.sw.c1 = false ∧
            Flagged (resultConds x.denormal false) s t) ∧
      (x.denormal = true → s.masked .d = false →
        Completes i s fun t =>
          Ran i (some (s.operandPtr p m)) s t ∧ MemKept s t ∧ StackKept s t ∧ Flagged [.d] s t) ∧
      (classOf x.val = .snan →
        Responds i (some (s.operandPtr p m)) s .ia fun t => Pushed (quiet x.val) s t ∧ t.sw.c1 = false)

/-- FLD m80real, FILD and FBLD push the operand's 80 bits, integer or decimal value, and FLD ST(i) a copy of a register
that is not empty, with no check of the operand, when the register to be filled is empty (R202, R203, R209, R220). FBLD
of an operand with a digit above 9 pushes some value, undefined (U5), with no flag: DEDUCED, log entry 41. -/
def Obligations.LoadUncheckedPushes : Prop :=
  ∀ (p : List Prefix) (m : MemForm) (s : State), s.pending = .clear → s.stTag 7#3 = .empty →
    (∀ i n v, (i, n, some v) ∈
        [(Instr.fldM80 p m, 10, some (BitVec.ofNat 80 (s.read (s.addr m) 10))),
          (Instr.fildM16i p m, 2, some (extOfInt (BitVec.ofNat 16 (s.read (s.addr m) 2)).toInt)),
          (Instr.fildM32i p m, 4, some (extOfInt (BitVec.ofNat 32 (s.read (s.addr m) 4)).toInt)),
          (Instr.fildM64i p m, 8, some (extOfInt (BitVec.ofNat 64 (s.read (s.addr m) 8)).toInt)),
          (Instr.fbld p m, 10, extOfBcd (BitVec.ofNat 80 (s.read (s.addr m) 10)))] →
      s.inRange m n = true →
        Completes i s fun t =>
          Ran i (some (s.operandPtr p m)) s t ∧ MemKept s t ∧ Pushed v s t ∧ t.sw.c1 = false ∧ Flagged [] s t) ∧
    (s.inRange m 10 = true → (∃ k, k < 18 ∧ 9 < s.read (s.addr m) 10 / 16 ^ k % 16) →
      Completes (.fbld p m) s fun t =>
        Ran (.fbld p m) (some (s.operandPtr p m)) s t ∧ MemKept s t ∧ (∃ v, Pushed v s t) ∧ t.sw.c1 = false ∧
          Flagged [] s t) ∧
    ∀ j : StIdx, s.stTag j ≠ .empty →
      Completes (.fldSti p j) s fun t =>
        Ran (.fldSti p j) none s t ∧ MemKept s t ∧ Pushed (s.st j) s t ∧ t.sw.c1 = false ∧ Flagged [] s t

/-- The load constant instructions push their constants, which depend on RC as the table of each rule gives them, and
set no flag, with C1 = 0 (R230 to R237). That they are the true values rounded by RC, with PE unchanged and C1 = 0, is
the spec's own decision D20: DEDUCED, log entry 30. -/
def Obligations.LoadConstantPushes : Prop :=
  ∀ (p : List Prefix) (s : State), s.pending = .clear → s.stTag 7#3 = .empty →
    ∀ i near low high, (i, near, low, high) ∈
        [(Instr.fldz p, 0x00000000000000000000#80, 0x00000000000000000000#80, 0x00000000000000000000#80),
          (Instr.fld1 p, 0x3FFF8000000000000000#80, 0x3FFF8000000000000000#80, 0x3FFF8000000000000000#80),
          (Instr.fldpi p, 0x4000C90FDAA22168C235#80, 0x4000C90FDAA22168C234#80, 0x4000C90FDAA22168C235#80),
          (Instr.fldl2t p, 0x4000D49A784BCD1B8AFE#80, 0x4000D49A784BCD1B8AFE#80, 0x4000D49A784BCD1B8AFF#80),
          (Instr.fldl2e p, 0x3FFFB8AA3B295C17F0BC#80, 0x3FFFB8AA3B295C17F0BB#80, 0x3FFFB8AA3B295C17F0BC#80),
          (Instr.fldlg2 p, 0x3FFD9A209A84FBCFF799#80, 0x3FFD9A209A84FBCFF798#80, 0x3FFD9A209A84FBCFF799#80),
          (Instr.fldln2 p, 0x3FFEB17217F7D1CF79AC#80, 0x3FFEB17217F7D1CF79AB#80, 0x3FFEB17217F7D1CF79AC#80)] →
      Completes i s fun t =>
        Ran i none s t ∧ MemKept s t ∧
          Pushed (match rcOf s.cw with | .nearest => near | .down => low | .up => high | .zero => low) s t ∧
          t.sw.c1 = false ∧ Flagged [] s t

/-- A push onto a register that is not empty is a stack overflow of every load and of FXTRACT, FPTAN and FSINCOS:
masked, the real indefinite is pushed and nothing else written; unmasked, the stack stays; SF and C1 are 1, and memory
stays (R183, R406). That a masked overflow of FXTRACT, FPTAN and FSINCOS writes the pushed register alone is the spec's
decision D6: DEDUCED, log entry 23. -/
def Obligations.PushOverflowsStack : Prop :=
  ∀ (p : List Prefix) (m : MemForm) (j : StIdx) (s : State), s.pending = .clear → s.stTag 7#3 ≠ .empty →
    ∀ i n, (i, n) ∈
        [(Instr.fldM32 p m, 4), (Instr.fldM64 p m, 8), (Instr.fldM80 p m, 10), (Instr.fildM16i p m, 2),
          (Instr.fildM32i p m, 4), (Instr.fildM64i p m, 8), (Instr.fbld p m, 10), (Instr.fldz p, 0), (Instr.fld1 p, 0),
          (Instr.fldpi p, 0), (Instr.fldl2t p, 0), (Instr.fldl2e p, 0), (Instr.fldlg2 p, 0), (Instr.fldln2 p, 0),
          (Instr.fldSti p j, 0), (Instr.fxtract p, 0), (Instr.fptan p, 0), (Instr.fsincos p, 0)] →
      s.inRange m n = true → (i = .fldSti p j → s.stTag j ≠ .empty) →
      (i ∈ [Instr.fxtract p, Instr.fptan p, Instr.fsincos p] → s.stTag 0#3 ≠ .empty) →
        Completes i s fun t =>
          MemKept s t ∧ t.sw.c1 = true ∧ Flagged [.isOver] s t ∧
            if s.masked .isOver then Pushed realIndefinite s t else StackKept s t

/-- FST and FSTP of a finite non-zero ST(0) to a single-real or double-real store it rounded to the format by RC where
the rounded exponent lies in the format's range; FSTP pops; C1 is the up bit and PE the inexact bit. On overflow the
masked response stores the value of Table 31-22, on underflow the number on the format's denormal grid; unmasked, either
stops with nothing stored or popped, and so does a denormal operand (R158 to R163, R167, R204, R206). Tininess after
rounding and the one rounding on the denormal grid are the spec's decision D15, log entry 27, and the value and C1 of a
masked overflow its decision D16, log entry 28: both DEDUCED. -/
def Obligations.StoreRealRounds : Prop :=
  ∀ (p : List Prefix) (m : MemForm) (s : State), memWf s.mem = true → s.pending = .clear → s.stTag 0#3 ≠ .empty →
    isFiniteNonzero (s.st 0#3) = true →
    ∀ i n f enc pop, (i, n, f, enc, pop) ∈ realStores p m → s.inRange m n = true →
      let den := isDenormal (s.st 0#3)
      let x := valOf (s.st 0#3)
      let r := roundP (exactNum x) f.prec (rcOf s.cw)
      let z := roundGrid (exactNum x) (f.emin - (f.prec - 1 : Nat)) (rcOf s.cw)
      let largest := overflowValue f (rcOf s.cw) x.neg
      let stores := fun (y : RealValue) (c1 : Bool) (cs : List Cond) =>
        Completes i s fun t =>
          Ran i (some (s.operandPtr p m)) s t ∧ MemStored (s.addr m) n (enc y) s t ∧
            (if pop then Popped s t else StackKept s t) ∧ t.sw.c1 = c1 ∧ Flagged cs s t
      let stops := fun (cs : List Cond) =>
        Completes i s fun t =>
          Ran i (some (s.operandPtr p m)) s t ∧ MemKept s t ∧ StackKept s t ∧ Flagged cs s t
      (den = true → s.masked .d = false → stops [.d]) ∧
        ((den = true → s.masked .d = true) →
          (InRange f r → stores (.finite x.neg r.n r.q) r.up (resultConds den r.inexact)) ∧
          (f.emax < r.exponent →
            if s.masked .o then stores largest largest.isInfinite (resultConds den false ++ [.o, .p])
            else stops (resultConds den false ++ [.o])) ∧
          (r.exponent < f.emin →
            if s.masked .u then
              stores (.finite x.neg z.n z.q) z.up (resultConds den false ++ if z.inexact then [.u, .p] else [])
            else stops (resultConds den false ++ [.u])))

/-- FST and FSTP of a zero, an infinity or a QNaN to a single-real or double-real are exact and set no flag; the NaN
keeps its upper fraction bits. An SNaN, an unsupported value and an empty ST(0) are invalid: masked, the SNaN quieted or
the real indefinite is stored, with the pop of FSTP; unmasked, nothing is stored or popped (R167, R182, R204, R206,
R406). The pop after a masked stack underflow is the spec's decision D6: DEDUCED, log entry 23. That the NaN keeps its
upper fraction bits is general knowledge in the spec: PRESUMED, log entry 56. -/
def Obligations.StoreRealOfSpecialValues : Prop :=
  ∀ (p : List Prefix) (m : MemForm) (s : State), memWf s.mem = true → s.pending = .clear →
    ∀ i n f enc pop, (i, n, f, enc, pop) ∈ realStores p m → s.inRange m n = true →
      let v := s.st 0#3
      let q := some (s.operandPtr p m)
      let stored := fun (y : RealValue) (t : State) =>
        MemStored (s.addr m) n (enc y) s t ∧ (if pop then Popped s t else StackKept s t) ∧ t.sw.c1 = false
      (∀ c y, (c, y) ∈
          [(Class.zero, RealValue.finite (signOf v) 0 0), (Class.infinity, RealValue.infinite (signOf v)),
            (Class.qnan, RealValue.nan (signOf v) (sigOf v))] →
        s.stTag 0#3 ≠ .empty → classOf v = c →
          Completes i s fun t => Ran i q s t ∧ stored y t ∧ Flagged [] s t) ∧
      (∀ c y, (s.stTag 0#3 ≠ .empty ∧ c = .ia ∧ classOf v = .snan ∧ y = RealValue.nan (signOf v) (sigOf (quiet v))) ∨
          (s.stTag 0#3 ≠ .empty ∧ c = .ia ∧ isUnsupported v = true ∧ y = RealValue.indefinite) ∨
          (s.stTag 0#3 = .empty ∧ c = .isUnder ∧ y = RealValue.indefinite) →
        Completes i s fun t =>
          Ran i q s t ∧ Flagged [c] s t ∧ if s.masked c then stored y t else MemKept s t ∧ StackKept s t)

/-- FIST and FISTP store a zero (either sign) or a finite ST(0) rounded to an integer by RC, in two's complement, when
it lies in the range of the operand, and FBSTP stores it as a packed decimal with its sign, -0 included, when it has at
most eighteen digits; the popping forms pop (R169, R170, R210, R211, R221). That the range is judged on the value
rounded by RC is the spec's decision D19: DEDUCED, log entry 29. The rounding of FBSTP by RC and the sign of its zero
are general knowledge in the spec: PRESUMED, log entry 56. -/
def Obligations.StoreIntegerRounds : Prop :=
  ∀ (p : List Prefix) (m : MemForm) (s : State), memWf s.mem = true → s.pending = .clear → s.stTag 0#3 ≠ .empty →
    isFiniteNonzero (s.st 0#3) = true ∨ isZero (s.st 0#3) = true →
    let r := roundInt (valOf (s.st 0#3)) (rcOf s.cw)
    let z : Int := if signOf (s.st 0#3) then -r.n else r.n
    (isZero (s.st 0#3) = true → r.n = 0 ∧ r.inexact = false ∧ r.up = false) ∧
    (∀ i n pop, (i, n, pop) ∈ integerStores p m →
      s.inRange m n = true → -(2 ^ (8 * n - 1)) ≤ z → z < 2 ^ (8 * n - 1) →
        Completes i s fun t =>
          Ran i (some (s.operandPtr p m)) s t ∧ MemStored (s.addr m) n (z % 2 ^ (8 * n)).toNat s t ∧
            (if pop then Popped s t else StackKept s t) ∧ t.sw.c1 = r.up ∧ Flagged (resultConds false r.inexact) s t) ∧
    (s.inRange m 10 = true → r.n < 10 ^ 18 →
      Completes (.fbstp p m) s fun t =>
        Ran (.fbstp p m) (some (s.operandPtr p m)) s t ∧
          MemStored (s.addr m) 10 (packedDecimal (signOf (s.st 0#3)) r.n).toNat s t ∧ Popped s t ∧ t.sw.c1 = r.up ∧
          Flagged (resultConds false r.inexact) s t)

/-- FIST, FISTP and FBSTP of a NaN, an infinity, an unsupported value, a number out of range or an empty ST(0): masked,
the integer or packed-decimal indefinite is stored (and the pop done), the low eight bytes of the latter undefined;
unmasked, nothing is stored or popped; IE is set (R150, R169, R170, R182, R407, U4). The range is judged on the value
rounded by RC, the spec's decision D19, log entry 29, and the pop after a masked stack underflow is its decision D6, log
entry 23: both DEDUCED. -/
def Obligations.StoreIntegerInvalid : Prop :=
  ∀ (p : List Prefix) (m : MemForm) (s : State), memWf s.mem = true → s.pending = .clear →
    let v := s.st 0#3
    let r := roundInt (valOf v) (rcOf s.cw)
    let z : Int := if signOf v then -r.n else r.n
    let q := some (s.operandPtr p m)
    let bad := fun (c : Cond) (outOfRange : Prop) =>
      (s.stTag 0#3 = .empty ∧ c = .isUnder) ∨
        (s.stTag 0#3 ≠ .empty ∧ c = .ia ∧
          (isNumber v = false ∨ isInf v = true ∨ isFiniteNonzero v = true ∧ outOfRange))
    (∀ i n pop c, (i, n, pop) ∈ integerStores p m → s.inRange m n = true →
      bad c (¬ (-(2 ^ (8 * n - 1)) ≤ z ∧ z < 2 ^ (8 * n - 1))) →
        Completes i s fun t =>
          Ran i q s t ∧ Flagged [c] s t ∧
            if s.masked c then
              MemStored (s.addr m) n (2 ^ (8 * n - 1)) s t ∧ (if pop then Popped s t else StackKept s t) ∧ t.sw.c1 = false
            else MemKept s t ∧ StackKept s t) ∧
    (∀ c, s.inRange m 10 = true → bad c (10 ^ 18 ≤ r.n) →
      Completes (.fbstp p m) s fun t =>
        Ran (.fbstp p m) q s t ∧ Flagged [c] s t ∧
          if s.masked c then
            (∃ low : BitVec 64, MemStored (s.addr m) 10 (packedIndefinite low).toNat s t) ∧ Popped s t ∧ t.sw.c1 = false
          else MemKept s t ∧ StackKept s t)

/-- FST ST(i) and FSTP ST(i) copy ST(0), and FSTP m80real stores its ten bytes, as they are, whatever their class; FSTP
then pops. FSTP m80real of an empty ST(0): masked, the real indefinite is stored and the pop done; unmasked, nothing
(R182, R205, R207, R208). That pop is the spec's decision D6: DEDUCED, log entry 23. -/
def Obligations.StoreUncheckedCopies : Prop :=
  ∀ (p : List Prefix) (s : State), s.pending = .clear →
    (∀ i : StIdx, s.stTag 0#3 ≠ .empty →
      Completes (.fstSti p i) s (fun t => Ran (.fstSti p i) none s t ∧ MemKept s t ∧ Wrote i (s.st 0#3) s t ∧
        t.sw.c1 = false ∧ Flagged [] s t) ∧
      Completes (.fstpSti p i) s fun t => Ran (.fstpSti p i) none s t ∧ MemKept s t ∧ WrotePopped i (s.st 0#3) s t ∧
        t.sw.c1 = false ∧ Flagged [] s t) ∧
    ∀ m : MemForm, memWf s.mem = true → s.inRange m 10 = true →
      (s.stTag 0#3 ≠ .empty →
        Completes (.fstpM80 p m) s fun t =>
          Ran (.fstpM80 p m) (some (s.operandPtr p m)) s t ∧ MemStored (s.addr m) 10 (s.st 0#3).toNat s t ∧ Popped s t ∧
            t.sw.c1 = false ∧ Flagged [] s t) ∧
      (s.stTag 0#3 = .empty →
        Completes (.fstpM80 p m) s fun t =>
          Ran (.fstpM80 p m) (some (s.operandPtr p m)) s t ∧ t.sw.c1 = false ∧ Flagged [.isUnder] s t ∧
            if s.masked .isUnder then MemStored (s.addr m) 10 realIndefinite.toNat s t ∧ Popped s t
            else MemKept s t ∧ StackKept s t)

/-- FXCH exchanges ST(0) and ST(i), each with the tag of its value. Where one of them is empty that is a stack
underflow: masked, the empty registers are loaded with the real indefinite first; unmasked, nothing is exchanged (R222).
-/
def Obligations.ExchangeSwaps : Prop :=
  ∀ (p : List Prefix) (i : StIdx) (s : State), s.pending = .clear →
    let exchanges := fun (a b : Ext) (t : State) =>
      t.sw.top = s.sw.top ∧ t.st 0#3 = b ∧ t.st i = a ∧ t.stTag 0#3 = tagOf b ∧ t.stTag i = tagOf a ∧
        OthersKept [s.sw.top, s.sw.top + i] s t
    (s.stTag 0#3 ≠ .empty → s.stTag i ≠ .empty →
      Completes (.fxch p i) s fun t =>
        Ran (.fxch p i) none s t ∧ MemKept s t ∧ exchanges (s.st 0#3) (s.st i) t ∧ t.sw.c1 = false ∧ Flagged [] s t) ∧
    (s.stTag 0#3 = .empty ∨ s.stTag i = .empty →
      Completes (.fxch p i) s fun t =>
        Ran (.fxch p i) none s t ∧ MemKept s t ∧ t.sw.c1 = false ∧ Flagged [.isUnder] s t ∧
          if s.masked .isUnder then
            exchanges (if s.stTag 0#3 = .empty then realIndefinite else s.st 0#3)
              (if s.stTag i = .empty then realIndefinite else s.st i) t
          else StackKept s t)

/-- FCMOVcc copies ST(i), not empty, to ST(0) where its condition on EFLAGS holds, and leaves the stack where it does
not (R212 to R219, R223). -/
def Obligations.ConditionalMoveCopies : Prop :=
  ∀ (p : List Prefix) (i : StIdx) (s : State), s.params.hasFcmov = true → s.pending = .clear → s.stTag i ≠ .empty →
    ∀ ins c, (ins, c) ∈ conditionalMoves p i s.eflags →
      Completes ins s fun t =>
        Ran ins none s t ∧ MemKept s t ∧ (if c then Wrote 0#3 (s.st i) s t else StackKept s t) ∧ t.sw.c1 = false ∧
          Flagged [] s t

/-! ### Basic arithmetic -/

/-- The basic arithmetic instructions in all their forms, on operands that are numbers with denormals masked: an exact
result, or the result rounded by PC and RC where it lies within the exponent range, goes to the destination, with the
pop of the popping forms; C1 is the up bit and PE the inexact bit (R155, R158, R163, R184, R240 to R259). C1 = 0 after
an exact result is the spec's decision D9: DEDUCED, log entry 26. The forms with destination ST(i) and their operand
order are general knowledge in the spec: PRESUMED, log entry 56. -/
def Obligations.ArithmeticDeliversRoundedResult : Prop :=
  ∀ (k : ArithKind) (s : State) (ins : Instr) (q : Option FarPtr) (a b : Operand) (p : Nat) (d : Dest),
    ArithForm k s ins q a b (some p) d → s.pending = .clear → a.empty = false → b.empty = false →
    isNumber a.val = true → isNumber b.val = true → ((a.denormal || b.denormal) = true → s.masked .d = true) →
      (∀ v, k.result (rcOf s.cw) a.val b.val = .exact v →
        Completes ins s fun t =>
          Ran ins q s t ∧ MemKept s t ∧ Delivered d v s t ∧ t.sw.c1 = false ∧
            Flagged (resultConds (a.denormal || b.denormal) false) s t) ∧
      (∀ x, k.result (rcOf s.cw) a.val b.val = .number x →
        let r := roundP x p (rcOf s.cw)
        InRange fmtExt r →
          Completes ins s fun t =>
            Ran ins q s t ∧ MemKept s t ∧ Delivered d (extOfNum { neg := x.neg, n := r.n, k := r.q }) s t ∧
              t.sw.c1 = r.up ∧ Flagged (resultConds (a.denormal || b.denormal) r.inexact) s t)

/-- R184 on numbers: the exact value that is rounded is the sum, difference, product or quotient of the operands'
values, and there is one exactly where neither operand is infinite and the sum or difference is not zero, or, for
product and quotient, both are finite and not zero; which operands are invalid and which divide by zero; the exact
results of infinities and zeros, with the sign of an exact zero sum. The results of infinities and zeros and the signs
of zero sums are general knowledge in the spec: PRESUMED, log entry 39. -/
def Obligations.ArithmeticExactValue : Prop :=
  ∀ (rc : RoundMode) (a b : Ext), isNumber a = true → isNumber b = true →
    let neg := signOf a ^^ signOf b
    (∀ (x : Exact) (num den : Nat) (k : Int), x.mag = .ratio num den k →
      let v : ℚ := (if x.neg then -1 else 1) * ((num : ℚ) / den * (2 : ℚ) ^ k)
      (binOp .add rc a b = .number x → v = ratOf a + ratOf b) ∧ (binOp .sub rc a b = .number x → v = ratOf a - ratOf b) ∧
        (binOp .mul rc a b = .number x → v = ratOf a * ratOf b) ∧
        (binOp .div rc a b = .number x → v = ratOf a / ratOf b)) ∧
    (∀ op (x : Exact), binOp op rc a b = .number x → ∃ num den k, x.mag = .ratio num den k) ∧
    ((∃ x, binOp .add rc a b = .number x) ↔ isInf a = false ∧ isInf b = false ∧ ratOf a + ratOf b ≠ 0) ∧
    ((∃ x, binOp .sub rc a b = .number x) ↔ isInf a = false ∧ isInf b = false ∧ ratOf a - ratOf b ≠ 0) ∧
    ((∃ x, binOp .mul rc a b = .number x) ↔ isFiniteNonzero a = true ∧ isFiniteNonzero b = true) ∧
    ((∃ x, binOp .div rc a b = .number x) ↔ isFiniteNonzero a = true ∧ isFiniteNonzero b = true) ∧
    (binOp .add rc a b = .invalid ↔ isInf a = true ∧ isInf b = true ∧ signOf a ≠ signOf b) ∧
    (binOp .sub rc a b = .invalid ↔ isInf a = true ∧ isInf b = true ∧ signOf a = signOf b) ∧
    (binOp .mul rc a b = .invalid ↔ isInf a = true ∧ isZero b = true ∨ isZero a = true ∧ isInf b = true) ∧
    (binOp .div rc a b = .invalid ↔ isInf a = true ∧ isInf b = true ∨ isZero a = true ∧ isZero b = true) ∧
    (∀ n, binOp .div rc a b = .zeroDivide n ↔ isFiniteNonzero a = true ∧ isZero b = true ∧ n = neg) ∧
    (isInf a = true → (isInf b = true → signOf a = signOf b) → binOp .add rc a b = .exact a) ∧
    (isInf a = false → isInf b = true → binOp .add rc a b = .exact b) ∧
    (isInf a = false → isInf b = false → ratOf a + ratOf b = 0 →
      binOp .add rc a b =
        .exact (zero (if isZero a = true ∧ signOf a = signOf b then signOf a else rc == .down))) ∧
    (isInf a = true → (isInf b = true → signOf a ≠ signOf b) → binOp .sub rc a b = .exact a) ∧
    (isInf a = false → isInf b = true → binOp .sub rc a b = .exact (infinity (!signOf b))) ∧
    (isInf a = false → isInf b = false → ratOf a - ratOf b = 0 →
      binOp .sub rc a b =
        .exact (zero (if isZero a = true ∧ signOf a ≠ signOf b then signOf a else rc == .down))) ∧
    (isZero a = false → isZero b = false → isInf a = true ∨ isInf b = true →
      binOp .mul rc a b = .exact (infinity neg)) ∧
    (isInf a = false → isInf b = false → isZero a = true ∨ isZero b = true → binOp .mul rc a b = .exact (zero neg)) ∧
    (isInf a = true → isInf b = false → binOp .div rc a b = .exact (infinity neg)) ∧
    (isInf a = false → isInf b = true → binOp .div rc a b = .exact (zero neg)) ∧
    (isZero a = true → isFiniteNonzero b = true → binOp .div rc a b = .exact (zero neg))

/-- An empty source register is a stack underflow of every arithmetic form, of FSQRT, FPREM, FPREM1, FRNDINT, FXTRACT,
FSCALE and the transcendental instructions, and of FST ST(i), FSTP ST(i), FLD ST(i) and FCMOVcc: masked, the real
indefinite goes to the destination (to both registers of FXTRACT, FPTAN and FSINCOS; to ST(0) of FCMOVcc where its
condition holds) and the pop is done; unmasked, stack and memory stay; SF is set and C1 is 0. A masked underflow of FLD
ST(i) can overflow as well, by the push (R182, R183, R203, R223, R406). The rest of an instruction after a masked stack
underflow is the spec's decision D6, and that FCMOVcc checks ST(i) whatever its condition its decision D17: DEDUCED, log
entry 23. What FXTRACT does is general knowledge in the spec: PRESUMED, log entry 56. That the underflow alone is
reported is its decision D7, log entry 24. -/
def Obligations.EmptySourceUnderflowsStack : Prop :=
  (∀ (k : ArithKind) (s : State) (ins : Instr) (q : Option FarPtr) (a b : Operand) (p : Option Nat) (d : Dest),
    ArithForm k s ins q a b p d → s.pending = .clear → (a.empty || b.empty) = true →
      Completes ins s fun t =>
        Ran ins q s t ∧ MemKept s t ∧ t.sw.c1 = false ∧ Flagged [.isUnder] s t ∧
          if s.masked .isUnder then Delivered d realIndefinite s t else StackKept s t) ∧
  ∀ (p : List Prefix) (j : StIdx) (s : State), s.pending = .clear →
    (∀ i sources d, (i, sources, d) ∈ registerOps p ++
        [(.fstSti p j, [0#3], some { i := j, pop := false }), (.fstpSti p j, [0#3], some { i := j, pop := true })] →
      (∃ l ∈ sources, s.stTag l = .empty) →
        Completes i s fun t =>
          Ran i none s t ∧ MemKept s t ∧ t.sw.c1 = false ∧ Flagged [.isUnder] s t ∧
            if s.masked .isUnder then DeliveredTo d realIndefinite s t else StackKept s t) ∧
    (s.stTag j = .empty →
      Completes (.fldSti p j) s (fun t =>
        Ran (.fldSti p j) none s t ∧ MemKept s t ∧
          if s.masked .isUnder then
            Pushed realIndefinite s t ∧ t.sw.c1 = decide (s.stTag 7#3 ≠ .empty) ∧
              Flagged (if s.stTag 7#3 = .empty then [.isUnder] else [.isUnder, .isOver]) s t
          else StackKept s t ∧ t.sw.c1 = false ∧ Flagged [.isUnder] s t) ∧
      (s.params.hasFcmov = true → ∀ i c, (i, c) ∈ conditionalMoves p j s.eflags →
        Completes i s fun t =>
          Ran i none s t ∧ MemKept s t ∧ t.sw.c1 = false ∧ Flagged [.isUnder] s t ∧
            if s.masked .isUnder && c then Wrote 0#3 realIndefinite s t else StackKept s t))

/-- Invalid operands, NaNs and zero divides of the arithmetic forms, in the order of R172: masked, the real indefinite,
the NaN of R165 or the signed infinity goes to the destination; unmasked, stack and memory stay. A denormal operand, D
unmasked, stops one that is neither invalid nor a zero divide. Unsupported values and NaNs as sources of FSQRT, FPREM,
FPREM1, FRNDINT, FXTRACT, FSCALE and the transcendental instructions, by the same order, and a denormal operand, D
unmasked, that stops them where the operands are not rejected: FXTRACT, FPTAN and FSINCOS, which need an empty register
to push to, write the result twice (R164, R165, R172, R262 to R266, R321 to R330). What FXTRACT does with a NaN is
general knowledge in the spec: PRESUMED, log entry 56. That a response sets its flag alone, with no DE beside it, is the
spec's decision D7: DEDUCED, log entry 24. -/
def Obligations.ArithmeticSpecialResponses : Prop :=
  (∀ (k : ArithKind) (s : State) (ins : Instr) (q : Option FarPtr) (a b : Operand) (p : Option Nat) (d : Dest),
    ArithForm k s ins q a b p d → s.pending = .clear → a.empty = false → b.empty = false →
      let responds := fun (c : Cond) (v : Ext) => Responds ins q s c fun t => Delivered d v s t ∧ t.sw.c1 = false
      let result := k.result (rcOf s.cw) a.val b.val
      (isUnsupported a.val = true ∨ isUnsupported b.val = true → responds .ia realIndefinite) ∧
      (isUnsupported a.val = false → isUnsupported b.val = false →
        (classOf a.val = .snan ∨ classOf b.val = .snan → responds .ia (nanResult a.val b.val)) ∧
        (classOf a.val ≠ .snan → classOf b.val ≠ .snan → classOf a.val = .qnan ∨ classOf b.val = .qnan →
          Completes ins s fun t =>
            Ran ins q s t ∧ MemKept s t ∧ Flagged [] s t ∧ Delivered d (nanResult a.val b.val) s t ∧ t.sw.c1 = false) ∧
        (isNan a.val = false → isNan b.val = false →
          (result = .invalid → responds .ia realIndefinite) ∧
          (∀ n, result = .zeroDivide n → responds .z (infinity n)) ∧
          (result ≠ .invalid → (∀ n, result ≠ .zeroDivide n) → (a.denormal || b.denormal) = true → s.masked .d = false →
            Completes ins s fun t => Ran ins q s t ∧ MemKept s t ∧ Flagged [.d] s t ∧ StackKept s t)))) ∧
  ∀ (p : List Prefix) (s : State), s.pending = .clear →
    ∀ i sources d, (i, sources, d) ∈ registerOps p → (∀ l ∈ sources, s.stTag l ≠ .empty) →
      (d = none → s.stTag 7#3 = .empty) →
      let responds := fun (v : Ext) => Responds i none s .ia fun t => DeliveredTo d v s t ∧ t.sw.c1 = false
      ((∃ l ∈ sources, isUnsupported (s.st l) = true) → responds realIndefinite) ∧
      ((∀ l ∈ sources, isUnsupported (s.st l) = false) →
        ((∃ l ∈ sources, classOf (s.st l) = .snan) → responds (s.sourceNan sources)) ∧
        ((∀ l ∈ sources, classOf (s.st l) ≠ .snan) → (∃ l ∈ sources, classOf (s.st l) = .qnan) →
          Completes i s fun t =>
            Ran i none s t ∧ MemKept s t ∧ Flagged [] s t ∧ DeliveredTo d (s.sourceNan sources) s t ∧ t.sw.c1 = false) ∧
        ((∀ l ∈ sources, isNan (s.st l) = false) → rejects (s.st 0#3) (s.st 1#3) i = false →
          (∃ l ∈ sources, isDenormal (s.st l) = true) → s.masked .d = false →
            Completes i s fun t => Ran i none s t ∧ MemKept s t ∧ Flagged [.d] s t ∧ StackKept s t))

/-- Overflow and underflow of the arithmetic forms, denormal operands masked: masked, the response of Table 31-22 or the
number rounded on the denormal grid; unmasked, the rounded result with its exponent moved by 24576, with ES set (R159 to
R163). Tininess after rounding and the denormal grid are the spec's decision D15, log entry 27, the largest extended
number and C1 whatever PC is its decision D16, log entry 28, and that the instruction completes, pop included, after an
unmasked condition its decision D18, log entry 23: all DEDUCED. -/
def Obligations.ArithmeticOverflowAndUnderflow : Prop :=
  ∀ (k : ArithKind) (s : State) (ins : Instr) (q : Option FarPtr) (a b : Operand) (p : Nat) (d : Dest) (x : Exact),
    ArithForm k s ins q a b (some p) d → s.pending = .clear → a.empty = false → b.empty = false →
    isNumber a.val = true → isNumber b.val = true → ((a.denormal || b.denormal) = true → s.masked .d = true) →
    k.result (rcOf s.cw) a.val b.val = .number x →
      let den := a.denormal || b.denormal
      let r := roundP x p (rcOf s.cw)
      let z := roundGrid x (-16382 - (p - 1 : Nat)) (rcOf s.cw)
      (16383 < r.exponent →
        Completes ins s fun t =>
          if s.masked .o then
            Delivered d (extOfReal (overflowValue fmtExt (rcOf s.cw) x.neg)) s t ∧
              Flagged (resultConds den false ++ [.o, .p]) s t ∧
              t.sw.c1 = (overflowValue fmtExt (rcOf s.cw) x.neg).isInfinite
          else
            Delivered d (extOfNum { neg := x.neg, n := r.n, k := r.q - 24576 }) s t ∧
              Flagged (.o :: resultConds den r.inexact) s t ∧ t.sw.c1 = r.up) ∧
      (r.exponent < -16382 →
        Completes ins s fun t =>
          if s.masked .u then
            Delivered d (extOfNum { neg := x.neg, n := z.n, k := z.q }) s t ∧
              Flagged (resultConds den false ++ if z.inexact then [.u, .p] else []) s t ∧ t.sw.c1 = z.up
          else
            Delivered d (extOfNum { neg := x.neg, n := r.n, k := r.q + 24576 }) s t ∧
              Flagged (.u :: resultConds den r.inexact) s t ∧ t.sw.c1 = r.up)

/-- FABS clears and FCHS inverts the sign bit of ST(0), whatever its class, and neither checks the operand; on an empty
ST(0) both are a stack underflow: masked, ST(0) becomes the real indefinite; unmasked, the stack stays (R260, R261). -/
def Obligations.SignOperationsChangeSignBit : Prop :=
  ∀ (p : List Prefix) (s : State), s.pending = .clear →
    ∀ i sign, (i, sign) ∈ [(Instr.fabs p, false), (Instr.fchs p, !signOf (s.st 0#3))] →
      (s.stTag 0#3 ≠ .empty →
        Completes i s fun t =>
          Ran i none s t ∧ MemKept s t ∧ Wrote 0#3 (mkExt sign (expOf (s.st 0#3)) (sigOf (s.st 0#3))) s t ∧
            t.sw.c1 = false ∧ Flagged [] s t) ∧
      (s.stTag 0#3 = .empty →
        Completes i s fun t =>
          Ran i none s t ∧ MemKept s t ∧ t.sw.c1 = false ∧ Flagged [.isUnder] s t ∧
            if s.masked .isUnder then Wrote 0#3 realIndefinite s t else StackKept s t)

/-- FSQRT of a positive number: the square root rounded by PC and RC; it never leaves the exponent range. A zero of
either sign and +infinity are their own square roots; a negative number and -infinity are invalid: masked, the real
indefinite; unmasked, the stack stays (R184, R262). A negative denormal is invalid alone by the spec's decision D7, log
entry 24. -/
def Obligations.SquareRootDelivers : Prop :=
  ∀ (p : List Prefix) (s : State), s.pending = .clear → s.stTag 0#3 ≠ .empty →
    (∀ w, precOf s.cw = some w → isFiniteNonzero (s.st 0#3) = true → signOf (s.st 0#3) = false →
      (isDenormal (s.st 0#3) = true → s.masked .d = true) →
        let r := roundP (sqrtNum (valOf (s.st 0#3))) w (rcOf s.cw)
        Completes (.fsqrt p) s fun t =>
          Ran (.fsqrt p) none s t ∧ MemKept s t ∧ Wrote 0#3 (extOfNum { neg := false, n := r.n, k := r.q }) s t ∧
            t.sw.c1 = r.up ∧ Flagged (resultConds (isDenormal (s.st 0#3)) r.inexact) s t) ∧
    (isZero (s.st 0#3) = true ∨ s.st 0#3 = infinity false →
      Completes (.fsqrt p) s fun t =>
        Ran (.fsqrt p) none s t ∧ MemKept s t ∧ Wrote 0#3 (s.st 0#3) s t ∧ t.sw.c1 = false ∧ Flagged [] s t) ∧
    (signOf (s.st 0#3) = true → isFiniteNonzero (s.st 0#3) = true ∨ isInf (s.st 0#3) = true →
      Responds (.fsqrt p) none s .ia fun t => Wrote 0#3 realIndefinite s t ∧ t.sw.c1 = false)

/-- FPREM and FPREM1 on finite non-zero operands, denormals masked: where the exponents differ by less than 64 the exact
remainder goes to ST(0) with the low bits of the quotient in C0, C3, C1 and C2 = 0; otherwise a partial remainder with
C2 = 1. A tiny remainder is exact where U is masked; unmasked, UE is set and its exponent moved by 24576. A zero ST(1)
or an infinite ST(0) is invalid: masked, the real indefinite with C2 = 0. A zero ST(0), or a finite ST(0) with an
infinite ST(1), is its own remainder, with the codes 0 (R161 to R163, R263, R264). The algorithm, with its limit of 64,
is general knowledge in the spec: PRESUMED, log entry 40. An invalid pair with a denormal operand sets IE alone by its
decision D7, log entry 24. -/
def Obligations.PartialRemainderDelivers : Prop :=
  ∀ (p : List Prefix) (s : State), s.pending = .clear → s.stTag 0#3 ≠ .empty → s.stTag 1#3 ≠ .empty →
    ∀ i kind, (i, kind) ∈ [(Instr.fprem p, RemKind.truncate), (Instr.fprem1 p, RemKind.nearest)] →
      let a := s.st 0#3
      let b := s.st 1#3
      let x := remainder kind (valOf a) (valOf b)
      let den := isDenormal a || isDenormal b
      let tiny := decide (x.r.n ≠ 0 ∧ exponentOf x.r < -16382) && !s.masked .u
      (isFiniteNonzero a = true → isFiniteNonzero b = true → (den = true → s.masked .d = true) →
        Completes i s fun t =>
          Ran i none s t ∧ MemKept s t ∧
            Wrote 0#3 (if x.r.n = 0 then zero (signOf a)
              else extOfNum (if tiny then { x.r with k := x.r.k + 24576 } else x.r)) s t ∧
            Flagged (resultConds den false ++ if tiny then [.u] else []) s t ∧
            t.sw.c2 = decide (64 ≤ exponentOf (valOf a) - exponentOf (valOf b)) ∧
            (exponentOf (valOf a) - exponentOf (valOf b) < 64 →
              t.sw.c0 = x.quot.testBit 2 ∧ t.sw.c3 = x.quot.testBit 1 ∧ t.sw.c1 = x.quot.testBit 0)) ∧
      (isNumber a = true → isNumber b = true → isZero b = true ∨ isInf a = true →
        Responds i none s .ia fun t => Wrote 0#3 realIndefinite s t ∧ t.sw.c2 = false ∧ t.sw.c1 = false) ∧
      (isZero a = true ∧ (isFiniteNonzero b = true ∨ isInf b = true) ∨ isFiniteNonzero a = true ∧ isInf b = true →
        (den = true → s.masked .d = true) →
          Completes i s fun t =>
            Ran i none s t ∧ MemKept s t ∧ StackKept s t ∧ Flagged (resultConds den false) s t ∧
              t.sw.c0 = false ∧ t.sw.c1 = false ∧ t.sw.c2 = false ∧ t.sw.c3 = false)

/-- The remainder is complete exactly where the exponents of dividend and divisor differ by less than 64. It is then the
dividend less the quotient times the divisor: the quotient truncated, the remainder smaller than the divisor with the
dividend's sign (FPREM), or the quotient rounded to nearest, the even one at a tie (FPREM1). A partial remainder is the
dividend less a multiple of the divisor scaled by a power of two, so that the exponents differ by 32 to 63 less (R263,
R264). The limit of 64 and the step of 32 to 63 bits are general knowledge in the spec: PRESUMED, log entry 40. -/
def Obligations.RemainderIsExact : Prop :=
  ∀ (kind : RemKind) (a b : Sys2Proof.Num), 0 < a.n → 0 < b.n →
    let x := remainder kind a b
    let e := exponentOf a - exponentOf b
    (x.complete = true ↔ e < 64) ∧
    (x.complete = true →
      |a.toRat| - x.quot * |b.toRat| = (if x.r.neg = a.neg then 1 else -1) * |x.r.toRat| ∧
        (kind = .truncate → x.r.neg = a.neg ∧ |x.r.toRat| < |b.toRat|) ∧
        (kind = .nearest → |x.r.toRat| ≤ |b.toRat| / 2 ∧ (|x.r.toRat| = |b.toRat| / 2 → x.quot % 2 = 0))) ∧
    (x.complete = false →
      ∃ (n : Int) (m : Nat), 32 ≤ n ∧ n ≤ 63 ∧ x.r.neg = a.neg ∧
        |a.toRat| - m * ((2 : ℚ) ^ (e - n) * |b.toRat|) = |x.r.toRat| ∧ |x.r.toRat| < (2 : ℚ) ^ (e - n) * |b.toRat|)

/-- FRNDINT of a finite number: ST(0) becomes the integer RC selects, a zero keeping the sign; a zero and an infinity
stay as they are. FXTRACT: the exponent replaces ST(0) and the significand with exponent 0 is pushed; of an infinity,
+infinity and the operand; of a zero a zero divide: masked, -infinity and the operand, unmasked, the stack stays (R265,
R266). What FXTRACT does with an infinity is general knowledge in the spec: PRESUMED, log entry 56. -/
def Obligations.RoundAndExtractDeliver : Prop :=
  ∀ (p : List Prefix) (s : State), s.pending = .clear → s.stTag 0#3 ≠ .empty →
    let a := s.st 0#3
    let x := valOf a
    let r := roundInt x (rcOf s.cw)
    (isFiniteNonzero a = true → (isDenormal a = true → s.masked .d = true) →
      Completes (.frndint p) s (fun t =>
        Ran (.frndint p) none s t ∧ MemKept s t ∧ Wrote 0#3 (extOfNum { neg := x.neg, n := r.n, k := 0 }) s t ∧
          t.sw.c1 = r.up ∧ Flagged (resultConds (isDenormal a) r.inexact) s t) ∧
      (s.stTag 7#3 = .empty →
        Completes (.fxtract p) s fun t =>
          Ran (.fxtract p) none s t ∧ MemKept s t ∧
            WrotePushed (extOfInt (exponentOf x)) (extOfNum { neg := x.neg, n := x.n, k := -(x.n.log2 : Int) }) s t ∧
            t.sw.c1 = false ∧ Flagged (resultConds (isDenormal a) false) s t)) ∧
    (isZero a = true ∨ isInf a = true →
      Completes (.frndint p) s fun t =>
        Ran (.frndint p) none s t ∧ MemKept s t ∧ StackKept s t ∧ t.sw.c1 = false ∧ Flagged [] s t) ∧
    (s.stTag 7#3 = .empty →
      (isInf a = true →
        Completes (.fxtract p) s fun t =>
          Ran (.fxtract p) none s t ∧ MemKept s t ∧ WrotePushed (infinity false) a s t ∧ t.sw.c1 = false ∧
            Flagged [] s t) ∧
      (isZero a = true → Responds (.fxtract p) none s .z fun t => WrotePushed (infinity true) a s t ∧ t.sw.c1 = false))

/-! ### Comparison -/

/-- The compares of two numbers set C3, C2 and C0 by the relation from the table of R292, clear C1, leave the registers
and pop as often as the mnemonic says; a denormal operand sets DE, and unmasked it stops the compare with codes and
stack kept (R290 to R301). What a stop leaves is the spec's decision D21: DEDUCED, log entry 31. -/
def Obligations.CompareSetsConditionCodes : Prop :=
  ∀ (p : List Prefix) (m : MemForm) (j : StIdx) (s : State), s.pending = .clear →
    ∀ i q n b kind pops, (i, q, n, b, kind, pops) ∈ statusCompares p m j s →
      s.inRange m n = true → s.stTag 0#3 ≠ .empty → b.empty = false → isNumber (s.st 0#3) = true → isNumber b.val = true →
      let den := isDenormal (s.st 0#3) || b.denormal
      ((den = true → s.masked .d = true) →
        Completes i s fun t =>
          Ran i q s t ∧ MemKept s t ∧ PoppedN pops s t ∧ Flagged (resultConds den false) s t ∧ t.sw.c1 = false ∧
            (cmpExt (s.st 0#3) b.val = .greater → t.sw.c3 = false ∧ t.sw.c2 = false ∧ t.sw.c0 = false) ∧
            (cmpExt (s.st 0#3) b.val = .less → t.sw.c3 = false ∧ t.sw.c2 = false ∧ t.sw.c0 = true) ∧
            (cmpExt (s.st 0#3) b.val = .equal → t.sw.c3 = true ∧ t.sw.c2 = false ∧ t.sw.c0 = false)) ∧
      (den = true → s.masked .d = false →
        Completes i s fun t =>
          Ran i q s t ∧ MemKept s t ∧ StackKept s t ∧ Flagged [.d] s t ∧
            t.sw.c3 = s.sw.c3 ∧ t.sw.c2 = s.sw.c2 ∧ t.sw.c0 = s.sw.c0)

/-- FCOMI, FCOMIP, FUCOMI and FUCOMIP report the relation in ZF, PF and CF, with C1 = 0, and pop where they pop; a
denormal operand sets DE where the processor's FCOMI_SIGNALS_D says so, and unmasked it stops the compare with EFLAGS
and stack kept (R7, R303 to R307). That parameter is the spec's decision D22, log entry 5, and what a stop leaves its
D21, log entry 31: DEDUCED. -/
def Obligations.CompareSetsEflags : Prop :=
  ∀ (p : List Prefix) (j : StIdx) (s : State), s.params.hasFcomi = true → s.pending = .clear →
    s.stTag 0#3 ≠ .empty → s.stTag j ≠ .empty → isNumber (s.st 0#3) = true → isNumber (s.st j) = true →
    let reports := s.params.fcomiSignalsD && (isDenormal (s.st 0#3) || isDenormal (s.st j))
    ∀ i kind pop, (i, kind, pop) ∈ eflagsCompares p j →
      let c := cmpExt (s.st 0#3) (s.st j)
      ((reports = true → s.masked .d = true) →
        Completes i s fun t =>
          Ran i none (s.setEflags (c == .equal) false (c == .less)) t ∧ MemKept s t ∧
            (if pop then Popped s t else StackKept s t) ∧ t.sw.c1 = false ∧ Flagged (resultConds reports false) s t) ∧
      (reports = true → s.masked .d = false →
        Completes i s fun t => Ran i none s t ∧ MemKept s t ∧ StackKept s t ∧ Flagged [.d] s t)

/-- Every compare, of whatever form: an empty operand is a stack underflow, and an SNaN or an unsupported value, and in
an ordered compare any NaN, is invalid: masked, the relation is unordered (C3, C2, C0 or ZF, PF, CF all 1, and the pops
done); unmasked, neither codes nor EFLAGS nor stack change. An unordered compare of a QNaN is unordered with no flag
(R182, R291, R292, R303, D21). What a compare leaves on a stop is the spec's decision D21, and the unordered result
after a masked underflow general knowledge in it: log entry 31. An invalid operand beside a denormal one sets IE alone
by its decision D7, log entry 24. -/
def Obligations.CompareUnordered : Prop :=
  ∀ (p : List Prefix) (m : MemForm) (j : StIdx) (s : State), s.pending = .clear →
    (∀ i q n b kind pops, (i, q, n, b, kind, pops) ∈ statusCompares p m j s → s.inRange m n = true →
      let a := s.stOperand 0#3
      let unordered := fun (t : State) =>
        PoppedN pops s t ∧ t.sw.c3 = true ∧ t.sw.c2 = true ∧ t.sw.c0 = true ∧ t.sw.c1 = false
      (∀ c, ((a.empty || b.empty) = true ∧ c = .isUnder) ∨
          ((a.empty || b.empty) = false ∧ invalidCompare kind a.val b.val = true ∧ c = .ia) →
        Completes i s fun t =>
          Ran i q s t ∧ MemKept s t ∧ Flagged [c] s t ∧
            if s.masked c then unordered t
            else StackKept s t ∧ t.sw.c3 = s.sw.c3 ∧ t.sw.c2 = s.sw.c2 ∧ t.sw.c0 = s.sw.c0) ∧
      ((a.empty || b.empty) = false → invalidCompare kind a.val b.val = false → (isNan a.val || isNan b.val) = true →
        Completes i s fun t => Ran i q s t ∧ MemKept s t ∧ Flagged [] s t ∧ unordered t)) ∧
    (s.params.hasFcomi = true → ∀ i kind pop, (i, kind, pop) ∈ eflagsCompares p j →
      let a := s.stOperand 0#3
      let b := s.stOperand j
      let unordered := fun (t : State) =>
        Ran i none (s.setEflags true true true) t ∧ (if pop then Popped s t else StackKept s t) ∧ t.sw.c1 = false
      (∀ c, ((a.empty || b.empty) = true ∧ c = .isUnder) ∨
          ((a.empty || b.empty) = false ∧ invalidCompare kind a.val b.val = true ∧ c = .ia) →
        Completes i s fun t =>
          MemKept s t ∧ Flagged [c] s t ∧ if s.masked c then unordered t else Ran i none s t ∧ StackKept s t) ∧
      ((a.empty || b.empty) = false → invalidCompare kind a.val b.val = false → (isNan a.val || isNan b.val) = true →
        Completes i s fun t => MemKept s t ∧ Flagged [] s t ∧ unordered t))

/-- FXAM reports the class of ST(0) in C3, C2, C0 and its sign in C1, empty or not, and sets no flag (R302). The table
of codes, and the sign of an empty register, are general knowledge in the spec: PRESUMED, log entry 38. -/
def Obligations.ExamineReportsClass : Prop :=
  ∀ (p : List Prefix) (s : State), s.pending = .clear →
    Completes (.fxam p) s fun t =>
      Ran (.fxam p) none s t ∧ MemKept s t ∧ StackKept s t ∧ Flagged [] s t ∧ t.sw.c1 = signOf (s.st 0#3) ∧
        (t.sw.c3, t.sw.c2, t.sw.c0) =
          if s.stTag 0#3 = .empty then (true, false, true)
          else if isUnsupported (s.st 0#3) then (false, false, false)
          else if isNan (s.st 0#3) then (false, false, true)
          else if isInf (s.st 0#3) then (false, true, true)
          else if isZero (s.st 0#3) then (true, false, false)
          else if isDenormal (s.st 0#3) then (true, true, false)
          else (false, true, false)

/-! ### Transcendental and scale -/

/-- FSIN, FCOS, FPTAN and FSINCOS on a finite non-zero operand below 2^63 in magnitude: the results, the flags and C1
are those of the NUMERICS values as DeliverT delivers them, C2 = 0; FPTAN pushes 1.0 and FSINCOS the cosine, with C1
fixed where the two results agree on it. An operand of 2^63 or more is out of range: C2 = 1, the stack stays, nothing is
pushed and no flag is set. A zero is exact: sine and tangent the zero, cosine and the pushed value 1.0. An infinity is
invalid: masked, the real indefinite (twice where a second result is pushed) with C2 = 0 (R320 to R324, D24). NUMERICS
is free within R331. That 2^63 itself is out of range is the spec's decision D24, log entry 32; which of two results is
pushed, the register left out of range, C2 = 0 in range and the exact results of zero are general knowledge in the spec:
PRESUMED, log entry 56. The delivery of a tiny result is log entry 27, and the order of FSINCOS's two results log entry
49. -/
def Obligations.TrigonometricDeliver : Prop :=
  ∀ (p : List Prefix) (s : State), s.pending = .clear → s.stTag 0#3 ≠ .empty →
    let v := s.st 0#3
    let u := if isDenormal v then s.signal .d else s
    let x := s.numerics.sin (argOf v) (rcOf s.cw)
    let y := s.numerics.cos (argOf v) (rcOf s.cw)
    let z := s.numerics.tan (argOf v) (rcOf s.cw)
    let ends := fun (i : Instr) (t : State) => Ran i none s t ∧ MemKept s t ∧ t.sw.c2 = false
    (InTrigRange v → (isDenormal v = true → s.masked .d = true) →
      Completes (.fsin p) s (fun t =>
        ends (.fsin p) t ∧ Wrote 0#3 (deliverT x u).2 s t ∧ Reports (deliverT x u).1 t) ∧
      Completes (.fcos p) s (fun t =>
        ends (.fcos p) t ∧ Wrote 0#3 (deliverT y u).2 s t ∧ Reports (deliverT y u).1 t) ∧
      (s.stTag 7#3 = .empty →
        Completes (.fptan p) s (fun t =>
          ends (.fptan p) t ∧ WrotePushed (deliverT z u).2 one s t ∧ Reports (deliverT z u).1 t) ∧
        Completes (.fsincos p) s fun t =>
          ends (.fsincos p) t ∧ WrotePushed (deliverT x u).2 (deliverT y u).2 s t ∧
            Reports ((deliverT y (deliverT x u).1).1.setC1 t.sw.c1) t ∧ (x.up = y.up → t.sw.c1 = x.up))) ∧
    (∀ i pushed, (i, pushed) ∈ [(Instr.fsin p, false), (Instr.fcos p, false), (Instr.fptan p, true), (Instr.fsincos p, true)] →
      (pushed = true → s.stTag 7#3 = .empty) →
      (isFiniteNonzero v = true → 63 ≤ exponentOf (valOf v) →
        Completes i s fun t => Ran i none s t ∧ MemKept s t ∧ StackKept s t ∧ t.sw.c2 = true ∧ Flagged [] s t) ∧
      (isZero v = true →
        Completes i s fun t =>
          ends i t ∧ t.sw.c1 = false ∧ Flagged [] s t ∧
            if pushed then WrotePushed v one s t else Wrote 0#3 (if i = .fcos p then one else v) s t) ∧
      (isInf v = true →
        Responds i none s .ia fun t =>
          t.sw.c2 = false ∧ t.sw.c1 = false ∧
            if pushed then WrotePushed realIndefinite realIndefinite s t else Wrote 0#3 realIndefinite s t))

/-- NUMERICS of every processor is one that R331 allows: within the bound for its generation of the functions of R325 to
R329 (of the argument reduced by the 66-bit pi, R326, for the trigonometric ones), monotonic, with the inexact and up
bits it says. DeliverT keeps that: a result that is accurate for the function value `f`, and lies within the exponent
range, is delivered as it is, so the value written is within the same bound of `f`; C1 says whether its magnitude is the
greater, and PE becomes 1 where it differs from `f` (R168, R320, R331). That the trigonometric functions are those of
the argument reduced by the 66-bit pi is the spec's decision D26: DEDUCED, log entry 34. The form of NUMERICS, a free
record within the bounds, is log entry 6. -/
def Obligations.DeliveryKeepsAccuracy : Prop :=
  ∀ s : State, NumericsConform s.params s.numerics ∧
    ∀ (a : Approx) (f : ℝ), Accurate s.params.generation (rcOf s.cw) f a → InRange fmtExt (roundedOf a) →
      let d := deliverT a s
      realOf d.2 = approxReal a ∧ CloseTo s.params.generation (rcOf s.cw) f (realOf d.2) ∧
        (d.1.sw.c1 = true ↔ |f| < |realOf d.2|) ∧ (realOf d.2 = f → Flagged [] s d.1) ∧
        (realOf d.2 ≠ f → Flagged [.p] s d.1)

/-- FPATAN, FYL2X and FYL2XP1 on two finite non-zero operands (x positive for FYL2X and other than 1, within the
supported domain for FYL2XP1) and F2XM1 on a finite non-zero operand of magnitude at most 1 deliver the value of
NUMERICS, the first three to ST(1) with a pop, with the flags and C1 of DeliverT (R320, R325, R327 to R329). NUMERICS is
free within R331. The destination ST(1) with its pop, and ST(0) of F2XM1, are general knowledge in the spec: PRESUMED,
log entry 56. NUMERICS is log entry 6, the delivery of a tiny result log entry 27. -/
def Obligations.LogarithmAndExponentialDeliver : Prop :=
  ∀ (p : List Prefix) (s : State), s.pending = .clear → s.stTag 0#3 ≠ .empty → isFiniteNonzero (s.st 0#3) = true →
    let x := s.st 0#3
    let y := s.st 1#3
    let rc := rcOf s.cw
    let delivers := fun (i : Instr) (u : State) (a : Approx) =>
      Completes i s fun t =>
        Ran i none s t ∧ MemKept s t ∧ WrotePopped 1#3 (deliverT a u).2 s t ∧ Reports (deliverT a u).1 t
    (s.stTag 1#3 ≠ .empty → isFiniteNonzero y = true → ((isDenormal x || isDenormal y) = true → s.masked .d = true) →
      let u := if isDenormal x || isDenormal y then s.signal .d else s
      delivers (.fpatan p) u (s.numerics.atan2 (argOf y) (argOf x) rc) ∧
      (signOf x = false → cmpExt x one ≠ .equal → delivers (.fyl2x p) u (s.numerics.ylog2x (argOf y) (argOf x) rc)) ∧
      (inXp1Domain s.params x = true →
        delivers (.fyl2xp1 p) u (s.numerics.ylog2xp1 (argOf y) (argOf x) rc))) ∧
    (cmpExt (magnitude x) one ≠ .greater → (isDenormal x = true → s.masked .d = true) →
      let u := if isDenormal x then s.signal .d else s
      let d := deliverT (s.numerics.exp2m1 (argOf x) rc) u
      Completes (.f2xm1 p) s fun t =>
        Ran (.f2xm1 p) none s t ∧ MemKept s t ∧ Wrote 0#3 d.2 s t ∧ Reports d.1 t)

/-- The zeros, infinities and invalid pairs of FPATAN (multiples of the 66-bit pi, rounded by RC), FYL2X and FYL2XP1 by
their tables, to ST(1) with a pop: an invalid pair gives the real indefinite and FYL2X of a zero x and a finite non-zero
y, a zero divide, the infinity of the sign opposite to y, each only where it is masked; outside its domain FYL2XP1
writes an undefined value. F2XM1 of a zero is the zero, and of an operand above 1 in magnitude an undefined value (R325,
R327 to R329). The tables are general knowledge in the spec: PRESUMED, log entry 39. FPATAN's multiples of the 66-bit
pi, rounded, are DEDUCED, log entry 34. That F2XM1 out of range sets no flag is the model's choice, log entry 41. The
destination ST(1) with its pop is general knowledge too: PRESUMED, log entry 56. That an invalid pair or a zero divide
sets its flag alone, with no DE beside it, is the spec's decision D7: DEDUCED, log entry 24. -/
def Obligations.LogarithmAndExponentialSpecialOperands : Prop :=
  ∀ (p : List Prefix) (s : State), s.pending = .clear → s.stTag 0#3 ≠ .empty → isNumber (s.st 0#3) = true →
    let x := s.st 0#3
    let y := s.st 1#3
    let sx := signOf x
    let sy := signOf y
    let den := isDenormal x || isDenormal y
    let exact := fun (i : Instr) (v : Ext) =>
      Completes i s fun t =>
        Ran i none s t ∧ MemKept s t ∧ WrotePopped 1#3 v s t ∧ t.sw.c1 = false ∧ Flagged (resultConds den false) s t
    let responds := fun (i : Instr) (c : Cond) (v : Ext) =>
      Responds i none s c fun t => WrotePopped 1#3 v s t ∧ t.sw.c1 = false
    let angle := fun (num e : Nat) =>
      let r := roundP { neg := sy, mag := .ratio (num * pi66) 1 (-64 - e) } 64 (rcOf s.cw)
      Completes (.fpatan p) s fun t =>
        Ran (.fpatan p) none s t ∧ MemKept s t ∧ WrotePopped 1#3 (extOfNum { neg := sy, n := r.n, k := r.q }) s t ∧
          t.sw.c1 = r.up ∧ Flagged (resultConds den r.inexact) s t
    (s.stTag 1#3 ≠ .empty → isNumber y = true →
      ((den = true → s.masked .d = true) →
        (isZero y = true → if sx then angle 1 0 else exact (.fpatan p) (zero sy)) ∧
        (isInf y = true → isInf x = true → if sx then angle 3 2 else angle 1 2) ∧
        (isInf y = true → isInf x = false → angle 1 1) ∧ (isFiniteNonzero y = true → isZero x = true → angle 1 1) ∧
        (isFiniteNonzero y = true → isInf x = true → if sx then angle 1 0 else exact (.fpatan p) (zero sy)) ∧
        (isZero x = true → isInf y = true → exact (.fyl2x p) (infinity (!sy))) ∧
        (isInf x = true → sx = false → isZero y = false → exact (.fyl2x p) (infinity sy)) ∧
        (isFiniteNonzero x = true → sx = false → cmpExt x one = .less →
          (isInf y = true → exact (.fyl2x p) (infinity (!sy))) ∧ (isZero y = true → exact (.fyl2x p) (zero (!sy)))) ∧
        (isFiniteNonzero x = true → cmpExt x one = .greater →
          (isInf y = true → exact (.fyl2x p) (infinity sy)) ∧ (isZero y = true → exact (.fyl2x p) (zero sy))) ∧
        (cmpExt x one = .equal → isInf y = false → exact (.fyl2x p) (zero sy)) ∧
        (cmpExt x (negate one) ≠ .less →
          (inXp1Domain s.params x = false → ¬ (isZero x = true ∧ isInf y = true) →
            Completes (.fyl2xp1 p) s fun t =>
              Ran (.fyl2xp1 p) none s t ∧ MemKept s t ∧ (∃ v, WrotePopped 1#3 v s t) ∧ Flagged (resultConds den false) s t) ∧
          (inXp1Domain s.params x = true →
            (isZero x = true → isInf y = false → exact (.fyl2xp1 p) (zero (sx ^^ sy))) ∧
              (isZero y = true → exact (.fyl2xp1 p) (zero (sx ^^ sy))) ∧
              (isFiniteNonzero x = true → isInf y = true → exact (.fyl2xp1 p) (infinity (sx ^^ sy)))))) ∧
      (sx = true ∧ isZero x = false ∨ isZero x = true ∧ isZero y = true ∨ cmpExt x one = .equal ∧ isInf y = true ∨
        isInf x = true ∧ isZero y = true → responds (.fyl2x p) .ia realIndefinite) ∧
      (isZero x = true → isFiniteNonzero y = true → responds (.fyl2x p) .z (infinity (!sy))) ∧
      (cmpExt x (negate one) = .less ∨ isZero x = true ∧ isInf y = true → responds (.fyl2xp1 p) .ia realIndefinite)) ∧
    (isZero x = true →
      Completes (.f2xm1 p) s fun t =>
        Ran (.f2xm1 p) none s t ∧ MemKept s t ∧ Wrote 0#3 x s t ∧ t.sw.c1 = false ∧ Flagged [] s t) ∧
    (cmpExt (magnitude x) one = .greater →
      Completes (.f2xm1 p) s fun t => Ran (.f2xm1 p) none s t ∧ MemKept s t ∧ (∃ v, Wrote 0#3 v s t) ∧ Flagged [] s t)

/-- FSCALE of a finite non-zero ST(0) by a finite ST(1), zero included: the exponent grows by ST(1) truncated toward
zero, exactly, where it stays within the exponent range. Beyond it the masked response to overflow is the value of Table
31-22, that to underflow the number on the denormal grid; unmasked, the result has its exponent moved by 24576, and is
an infinity or a zero where it is out of range even so. A zero or an infinity in ST(0) stays, an infinite ST(1) gives an
infinity or a zero, and zero by +infinity or infinity by -infinity is invalid (R159 to R162, R330). The rows of zeros
and infinities are general knowledge in the spec: PRESUMED, log entry 39. The masked underflow rests on its decision
D15, log entry 27, and the masked overflow on D16, log entry 28: both DEDUCED. -/
def Obligations.ScaleAddsExponent : Prop :=
  ∀ (p : List Prefix) (s : State), s.pending = .clear → s.stTag 0#3 ≠ .empty → s.stTag 1#3 ≠ .empty →
    let a := s.st 0#3
    let b := s.st 1#3
    let den := isDenormal a || isDenormal b
    let writes := fun (v : Ext) (c1 : Bool) (cs : List Cond) =>
      Completes (.fscale p) s fun t =>
        Ran (.fscale p) none s t ∧ MemKept s t ∧ Wrote 0#3 v s t ∧ t.sw.c1 = c1 ∧
          Flagged (resultConds den false ++ cs) s t
    ((den = true → s.masked .d = true) → isFiniteNonzero a = true →
      (isFiniteNonzero b = true ∨ isZero b = true →
        ∀ z : Int, ((0 ≤ ratOf b ∧ (z : ℚ) ≤ ratOf b ∧ ratOf b < z + 1) ∨
            (ratOf b ≤ 0 ∧ (z : ℚ) - 1 < ratOf b ∧ ratOf b ≤ z)) →
          let x : Sys2Proof.Num := { valOf a with k := (valOf a).k + z }
          let e := exponentOf x
          let r := roundGrid (exactNum x) (-16445) (rcOf s.cw)
          let largest := overflowValue fmtExt (rcOf s.cw) x.neg
          (-16382 ≤ e → e ≤ 16383 → writes (extOfNum x) false []) ∧
          (classOf a = .normal → 1 ≤ ((expOf a).toNat : Int) + z → ((expOf a).toNat : Int) + z ≤ 32766 →
            writes (mkExt (signOf a) (BitVec.ofInt 15 (((expOf a).toNat : Int) + z)) (sigOf a)) false []) ∧
          (16384 ≤ e →
            if s.masked .o then writes (extOfReal largest) largest.isInfinite [.o, .p]
            else writes (if e < 40960 then extOfNum { x with k := x.k - 24576 } else infinity x.neg) false [.o]) ∧
          (e < -16382 →
            if s.masked .u then
              writes (extOfNum { neg := x.neg, n := r.n, k := r.q }) r.up (if r.inexact then [.u, .p] else [])
            else writes (if -40958 ≤ e then extOfNum { x with k := x.k + 24576 } else zero x.neg) false [.u])) ∧
      (isInf b = true → writes (if signOf b then zero (signOf a) else infinity (signOf a)) false [])) ∧
    (isNumber b = true → isZero a = true ∧ b ≠ infinity false ∨ isInf a = true ∧ b ≠ infinity true →
      (isDenormal b = true → s.masked .d = true) →
        Completes (.fscale p) s fun t =>
          Ran (.fscale p) none s t ∧ MemKept s t ∧ StackKept s t ∧ t.sw.c1 = false ∧
            Flagged (resultConds (isDenormal b) false) s t) ∧
    (isZero a = true ∧ b = infinity false ∨ isInf a = true ∧ b = infinity true →
      Responds (.fscale p) none s .ia fun t => Wrote 0#3 realIndefinite s t ∧ t.sw.c1 = false)

/-! ### Control -/

/-- The state FNINIT, and FINIT with nothing pending, leaves: CW = 037FH, SW = 0, TW = FFFFH, the pointers 0, the
contents of the data registers as they were (R55 column (a), R352, R353, D4). FNCLEX, and FCLEX with nothing pending,
clear the six exception flags, SF, ES and B, deassert FERR# and leave TOP, tags and registers (R360, R361). What FNINIT
keeps is the spec's decision D4, log entry 45, and the deassertion of FERR# is PRESUMED, log entry 9. -/
def Obligations.InitializeAndClear : Prop :=
  ∀ (p : List Prefix) (s : State),
    (∀ i, (i = .fninit p ∨ i = .finit p ∧ s.pending = .clear) →
      Completes i s fun t =>
        t.cw = 0x037F#16 ∧ t.sw.toBits = 0#16 ∧ tagWord t.tags = 0xFFFF#16 ∧ t.fip = 0#48 ∧ t.fdp = 0#48 ∧
          t.fop = 0#11 ∧ t.regs = s.regs ∧ t.ferr = false ∧ MemKept s t ∧ HostKept s t ∧
          t.eip = s.eip + BitVec.ofNat 32 i.length) ∧
    (∀ i, (i = .fnclex p ∨ i = .fclex p ∧ s.pending = .clear) →
      Completes i s fun t =>
        RanControl i s t ∧ MemKept s t ∧ StackKept s t ∧ t.cw = s.cw ∧
          t.sw.exceptions = [false, false, false, false, false, false, false] ∧ t.sw.es = false ∧ t.sw.b = false ∧
          t.ferr = false)

/-- FLDCW loads the control word from memory as it is and recomputes ES and B; no flag changes (R354, R33, R34). FNSTCW,
FNSTSW and their waiting forms with nothing pending store the control or status word and change nothing else of the FPU;
bits 0 to 5 and 8 to 12 of the control word are as loaded. FNSTSW AX and FSTSW AX put the status word into AX; the upper
half of EAX and everything else stay (R40, R355 to R359). The undefined bits of the stored control word are the spec's
decision D11, log entry 18, the recomputed ES and B its D10, log entry 19; that the upper half of EAX stays is general
knowledge in the spec: PRESUMED, log entry 56. -/
def Obligations.ControlAndStatusWordTransfers : Prop :=
  (∀ (p : List Prefix) (m : MemForm) (s : State), s.pending = .clear → s.inRange m 2 = true →
    Completes (.fldcw p m) s fun t =>
      RanControl (.fldcw p m) s t ∧ MemKept s t ∧ StackKept s t ∧ t.cw = BitVec.ofNat 16 (s.read (s.addr m) 2) ∧
        t.sw.exceptions = s.sw.exceptions ∧ t.sw.es = summary s.sw t.cw ∧ t.sw.b = summary s.sw t.cw) ∧
  (∀ (p : List Prefix) (m : MemForm) (s : State) (i : Instr), (i.nonWaiting = false → s.pending = .clear) →
    memWf s.mem = true → s.inRange m 2 = true →
      (i = .fnstcw p m ∨ i = .fstcw p m →
        ∃ w : Word16, w &&& 0x1F3F#16 = s.cw &&& 0x1F3F#16 ∧ (s.cw = 0x037F#16 → w = s.cw) ∧
          Completes i s fun t =>
            RanControl i s t ∧ MemStored (s.addr m) 2 w.toNat s t ∧ StackKept s t ∧ t.cw = s.cw ∧ t.sw = s.sw ∧
              t.ferr = s.ferr) ∧
      (i = .fnstswM16 p m ∨ i = .fstswM16 p m →
        Completes i s fun t =>
          RanControl i s t ∧ MemStored (s.addr m) 2 s.sw.toBits.toNat s t ∧ StackKept s t ∧ t.cw = s.cw ∧ t.sw = s.sw ∧
            t.ferr = s.ferr)) ∧
  (∀ (p : List Prefix) (s : State), ∀ i, (i = .fnstswAx p ∨ i = .fstswAx p ∧ s.pending = .clear) →
    Completes i s fun t =>
      t.gprs = { s.gprs with eax := s.gprs.eax.extractLsb' 16 16 ++ s.sw.toBits } ∧ RanControl i { s with gprs := t.gprs } t ∧
        MemKept s t ∧ StackKept s t ∧ t.cw = s.cw ∧ t.sw = s.sw ∧ t.ferr = s.ferr)

/-- FNSTENV, and FSTENV with nothing pending, store the environment image of the format in effect, with control, status
and tag word, pointers and opcode at the byte offsets of that format, then set the six masks, so that nothing is
pending: flags, stack and pointers stay (R363, R364, R366, R377 to R380, D28). The layouts are general knowledge in the
spec, and the linear pointers and FOP its decision D28: log entry 36. That PC, RC and bit 12 of the control word stay is
general knowledge too: PRESUMED, log entry 56. The deassertion of FERR# is PRESUMED, log entry 9, and the undefined bits
of the stored control word are the decision D11, log entry 18. -/
def Obligations.StoreEnvironment : Prop :=
  ∀ (p : List Prefix) (m : MemForm) (s : State), ∀ i, (i = .fnstenv p m ∨ i = .fstenv p m ∧ s.pending = .clear) →
    let f := s.imageFormat p
    memWf s.mem = true → s.inRange m f.size = true →
      Completes i s fun t =>
        RanControl i s t ∧ (∀ b, b < s.addr m ∨ s.addr m + f.size ≤ b → t.byte b = s.byte b) ∧ StackKept s t ∧
          t.cw = s.cw ||| 0x003F#16 ∧ t.sw.exceptions = s.sw.exceptions ∧ t.sw.es = false ∧ t.sw.b = false ∧
          t.ferr = false ∧
          ∃ w : Word16, w &&& 0x1F3F#16 = s.cw &&& 0x1F3F#16 ∧ (s.cw = 0x037F#16 → w = s.cw) ∧
            ImageShows f (s.addr m) w s.sw.toBits (tagWord s.tags) s.fip s.fdp s.fop t

/-- FLDENV loads control word, status word, pointers, opcode and tags from the byte offsets of the image of the format
in effect; a tag that is not empty is that of the register's contents; ES and B are recomputed. The 16-bit protected
format holds no opcode, and leaves FOP (R42, R362, R366, R377 to R380, D28). The layouts are general knowledge in the
spec, and the linear pointers and FOP its decision D28: log entry 36. That ES and B are recomputed from the loaded flags
and masks is the decision D10: DEDUCED, log entry 19. -/
def Obligations.LoadEnvironment : Prop :=
  ∀ (p : List Prefix) (m : MemForm) (s : State) (e : Env), s.pending = .clear →
    let f := s.imageFormat p
    s.inRange m f.size = true → ImageHolds f (s.addr m) s e →
      Completes (.fldenv p m) s fun t =>
        t.cw = e.cw ∧ t.fip = e.fip ∧ t.fdp = e.fdp ∧ t.fop = e.fop.getD s.fop ∧ t.regs = s.regs ∧
          (∀ k : Fin 8, t.tags.get k =
            if e.tw.extractLsb' (2 * k.val) 2 = 3#2 then .empty else tagOf (s.regs.get k)) ∧
          t.sw = { StatusWord.ofBits e.sw with es := summary t.sw t.cw, b := summary t.sw t.cw } ∧ MemKept s t ∧
          HostKept s t ∧ t.eip = s.eip + BitVec.ofNat 32 (Instr.fldenv p m).length

/-- FNSAVE, and FSAVE with nothing pending, store the environment image of the format in effect and, after it, the eight
registers in stack order, ten bytes each, then leave the state FNINIT leaves (R367, R368, R377 to R381, D28). The
layouts are general knowledge in the spec, and the linear pointers and FOP its decision D28: log entry 36. That TOP and
FOP become 0 and the register contents stay is the decision D4: DEDUCED, log entry 45. The deassertion of FERR# is
PRESUMED, log entry 9, and the undefined bits of the stored control word are the decision D11, log entry 18. -/
def Obligations.SaveState : Prop :=
  ∀ (p : List Prefix) (m : MemForm) (s : State), ∀ i, (i = .fnsave p m ∨ i = .fsave p m ∧ s.pending = .clear) →
    let f := s.imageFormat p
    memWf s.mem = true → s.inRange m (f.size + 80) = true →
      Completes i s fun t =>
        (∃ w : Word16, w &&& 0x1F3F#16 = s.cw &&& 0x1F3F#16 ∧ (s.cw = 0x037F#16 → w = s.cw) ∧
          ImageShows f (s.addr m) w s.sw.toBits (tagWord s.tags) s.fip s.fdp s.fop t) ∧
          (∀ j : StIdx, t.read (s.addr m + f.size + 10 * j.toNat) 10 = (s.st j).toNat) ∧
          (∀ b, b < s.addr m ∨ s.addr m + (f.size + 80) ≤ b → t.byte b = s.byte b) ∧
          t.cw = 0x037F#16 ∧ t.sw.toBits = 0#16 ∧ tagWord t.tags = 0xFFFF#16 ∧ t.fip = 0#48 ∧ t.fdp = 0#48 ∧
          t.fop = 0#11 ∧ t.regs = s.regs ∧ t.ferr = false ∧ HostKept s t ∧
          t.eip = s.eip + BitVec.ofNat 32 i.length

/-- FRSTOR loads the environment as FLDENV does, from the byte offsets of the format in effect, and the eight registers
in stack order from the bytes after it. The 16-bit protected format leaves FOP (R365, R377 to R381, D28). The layouts
are general knowledge in the spec, and the linear pointers and FOP its decision D28: log entry 36. That ES and B are
recomputed from the loaded flags and masks is the decision D10: DEDUCED, log entry 19. -/
def Obligations.RestoreState : Prop :=
  ∀ (p : List Prefix) (m : MemForm) (s : State) (e : Env), s.pending = .clear →
    let f := s.imageFormat p
    s.inRange m (f.size + 80) = true → ImageHolds f (s.addr m) s e →
      Completes (.frstor p m) s fun t =>
        t.cw = e.cw ∧ t.fip = e.fip ∧ t.fdp = e.fdp ∧ t.fop = e.fop.getD s.fop ∧
          (∀ j : StIdx, t.st j = BitVec.ofNat 80 (s.read (s.addr m + f.size + 10 * j.toNat) 10)) ∧
          (∀ k : Fin 8, t.tags.get k =
            if e.tw.extractLsb' (2 * k.val) 2 = 3#2 then .empty else tagOf (t.regs.get k)) ∧
          t.sw = { StatusWord.ofBits e.sw with es := summary t.sw t.cw, b := summary t.sw t.cw } ∧ MemKept s t ∧
          HostKept s t ∧ t.eip = s.eip + BitVec.ofNat 32 (Instr.frstor p m).length

/-- FRSTOR of the image FNSAVE wrote brings back the registers, the tags, the status word, the defined bits of the
control word and, in the 32-bit protected format, the pointers; in the other formats the pointers come back as D28 reads
them, and the opcode, but from the 16-bit protected format, which leaves it (R365, R367, R377 to R380). The layouts are
general knowledge in the spec, and the linear pointers and FOP its decision D28: log entry 36. That FNSAVE leaves the
pattern of D4 is log entry 45, the recomputed ES and B are D10, log entry 19, and the undefined bits of the control word
D11, log entry 18. -/
def Obligations.RestoreUndoesSave : Prop :=
  ∀ (p q : List Prefix) (m : MemForm) (s t : State), s.Inv → exec (.fnsave p m) s = .next t →
    s.imageFormat q = s.imageFormat p →
      Completes (.frstor q m) t fun u =>
        u.regs = s.regs ∧ u.tags = s.tags ∧ u.sw = s.sw ∧ u.cw &&& 0x1F3F#16 = s.cw &&& 0x1F3F#16 ∧
          (s.imageFormat p = .protected32 → u.fip = s.fip ∧ u.fdp = s.fdp ∧ u.fop = s.fop) ∧
          (s.imageFormat p = .real32 →
            u.fip = (linear s.fip).zeroExtend 48 ∧ u.fdp = (linear s.fdp).zeroExtend 48 ∧ u.fop = s.fop) ∧
          (s.imageFormat p = .protected16 →
            u.fip = s.fip.extractLsb' 32 16 ++ (0#16 ++ s.fip.extractLsb' 0 16) ∧
              u.fdp = s.fdp.extractLsb' 32 16 ++ (0#16 ++ s.fdp.extractLsb' 0 16) ∧ u.fop = 0#11) ∧
          (s.imageFormat p = .real16 →
            u.fip = ((linear s.fip).extractLsb' 0 20).zeroExtend 48 ∧
              u.fdp = ((linear s.fdp).extractLsb' 0 20).zeroExtend 48 ∧ u.fop = s.fop)

/-- FINCSTP and FDECSTP move TOP by one either way, FFREE empties ST(i) and moves nothing, FNOP leaves the stack:
contents and other tags stay, and no flag is set (R369 to R372). WAIT with nothing pending, and FENI, FDISI and FSETPM
always, do nothing but advance (R373 to R376). That the last three do so with an exception pending too is the spec's
decision D27: DEDUCED, log entry 35. That tags and contents stay is general knowledge in the spec: PRESUMED, log entry
56. -/
def Obligations.StackPointerFreeAndNoOperations : Prop :=
  (∀ (p : List Prefix) (j : StIdx) (s : State), s.pending = .clear →
    ∀ i top tags, (i, top, tags) ∈
        [(Instr.fincstp p, s.sw.top + 1#3, s.tags), (Instr.fdecstp p, s.sw.top - 1#3, s.tags),
          (Instr.ffree p j, s.sw.top, s.tags.set (s.sw.top + j).toFin .empty), (Instr.fnop p, s.sw.top, s.tags)] →
      Completes i s fun t =>
        Ran i none s t ∧ MemKept s t ∧ t.sw.top = top ∧ t.tags = tags ∧ t.regs = s.regs ∧ Flagged [] s t ∧
          ((i = .fincstp p ∨ i = .fdecstp p) → t.sw.c1 = false)) ∧
  (∀ (p : List Prefix) (s : State), ∀ i, (i = .wait p ∧ s.pending = .clear ∨ i = .feni p ∨ i = .fdisi p ∨ i = .fsetpm p) →
    Completes i s fun t =>
      RanControl i s t ∧ MemKept s t ∧ StackKept s t ∧ t.cw = s.cw ∧ t.sw = s.sw ∧ t.ferr = s.ferr)
end

