-- ==== Sys2Proof/Laws/State.lean ====
section
/-! SUPPORT. One lemma for each field of State and each update the meanings are made of, so that no proof unfolds an
update. -/

namespace Sys2Proof.Machine

variable (s : State)

/-! ### withSw -/

@[simp] theorem State.withSw_regs (w : StatusWord) : (s.withSw w).regs = s.regs := rfl
@[simp] theorem State.withSw_tags (w : StatusWord) : (s.withSw w).tags = s.tags := rfl
@[simp] theorem State.withSw_sw (w : StatusWord) : (s.withSw w).sw = w := rfl
@[simp] theorem State.withSw_cw (w : StatusWord) : (s.withSw w).cw = s.cw := rfl
@[simp] theorem State.withSw_fip (w : StatusWord) : (s.withSw w).fip = s.fip := rfl
@[simp] theorem State.withSw_fdp (w : StatusWord) : (s.withSw w).fdp = s.fdp := rfl
@[simp] theorem State.withSw_fop (w : StatusWord) : (s.withSw w).fop = s.fop := rfl
@[simp] theorem State.withSw_gprs (w : StatusWord) : (s.withSw w).gprs = s.gprs := rfl
@[simp] theorem State.withSw_segs (w : StatusWord) : (s.withSw w).segs = s.segs := rfl
@[simp] theorem State.withSw_eip (w : StatusWord) : (s.withSw w).eip = s.eip := rfl
@[simp] theorem State.withSw_eflags (w : StatusWord) : (s.withSw w).eflags = s.eflags := rfl
@[simp] theorem State.withSw_ne (w : StatusWord) : (s.withSw w).ne = s.ne := rfl
@[simp] theorem State.withSw_mode (w : StatusWord) : (s.withSw w).mode = s.mode := rfl
@[simp] theorem State.withSw_code32 (w : StatusWord) : (s.withSw w).code32 = s.code32 := rfl
@[simp] theorem State.withSw_ignne (w : StatusWord) : (s.withSw w).ignne = s.ignne := rfl
@[simp] theorem State.withSw_ferr (w : StatusWord) : (s.withSw w).ferr = s.ferr := rfl
@[simp] theorem State.withSw_event (w : StatusWord) : (s.withSw w).event = s.event := rfl
@[simp] theorem State.withSw_mem (w : StatusWord) : (s.withSw w).mem = s.mem := rfl
@[simp] theorem State.withSw_params (w : StatusWord) : (s.withSw w).params = s.params := rfl
@[simp] theorem State.withSw_draws (w : StatusWord) : (s.withSw w).draws = s.draws := rfl

/-! ### withCw -/

@[simp] theorem State.withCw_regs (w : Word16) : (s.withCw w).regs = s.regs := rfl
@[simp] theorem State.withCw_tags (w : Word16) : (s.withCw w).tags = s.tags := rfl
@[simp] theorem State.withCw_sw (w : Word16) : (s.withCw w).sw = s.sw := rfl
@[simp] theorem State.withCw_cw (w : Word16) : (s.withCw w).cw = w := rfl
@[simp] theorem State.withCw_fip (w : Word16) : (s.withCw w).fip = s.fip := rfl
@[simp] theorem State.withCw_fdp (w : Word16) : (s.withCw w).fdp = s.fdp := rfl
@[simp] theorem State.withCw_fop (w : Word16) : (s.withCw w).fop = s.fop := rfl
@[simp] theorem State.withCw_gprs (w : Word16) : (s.withCw w).gprs = s.gprs := rfl
@[simp] theorem State.withCw_segs (w : Word16) : (s.withCw w).segs = s.segs := rfl
@[simp] theorem State.withCw_eip (w : Word16) : (s.withCw w).eip = s.eip := rfl
@[simp] theorem State.withCw_eflags (w : Word16) : (s.withCw w).eflags = s.eflags := rfl
@[simp] theorem State.withCw_ne (w : Word16) : (s.withCw w).ne = s.ne := rfl
@[simp] theorem State.withCw_mode (w : Word16) : (s.withCw w).mode = s.mode := rfl
@[simp] theorem State.withCw_code32 (w : Word16) : (s.withCw w).code32 = s.code32 := rfl
@[simp] theorem State.withCw_ignne (w : Word16) : (s.withCw w).ignne = s.ignne := rfl
@[simp] theorem State.withCw_ferr (w : Word16) : (s.withCw w).ferr = s.ferr := rfl
@[simp] theorem State.withCw_event (w : Word16) : (s.withCw w).event = s.event := rfl
@[simp] theorem State.withCw_mem (w : Word16) : (s.withCw w).mem = s.mem := rfl
@[simp] theorem State.withCw_params (w : Word16) : (s.withCw w).params = s.params := rfl
@[simp] theorem State.withCw_draws (w : Word16) : (s.withCw w).draws = s.draws := rfl

/-! ### withFerr -/

@[simp] theorem State.withFerr_regs (b : Bool) : (s.withFerr b).regs = s.regs := rfl
@[simp] theorem State.withFerr_tags (b : Bool) : (s.withFerr b).tags = s.tags := rfl
@[simp] theorem State.withFerr_sw (b : Bool) : (s.withFerr b).sw = s.sw := rfl
@[simp] theorem State.withFerr_cw (b : Bool) : (s.withFerr b).cw = s.cw := rfl
@[simp] theorem State.withFerr_fip (b : Bool) : (s.withFerr b).fip = s.fip := rfl
@[simp] theorem State.withFerr_fdp (b : Bool) : (s.withFerr b).fdp = s.fdp := rfl
@[simp] theorem State.withFerr_fop (b : Bool) : (s.withFerr b).fop = s.fop := rfl
@[simp] theorem State.withFerr_gprs (b : Bool) : (s.withFerr b).gprs = s.gprs := rfl
@[simp] theorem State.withFerr_segs (b : Bool) : (s.withFerr b).segs = s.segs := rfl
@[simp] theorem State.withFerr_eip (b : Bool) : (s.withFerr b).eip = s.eip := rfl
@[simp] theorem State.withFerr_eflags (b : Bool) : (s.withFerr b).eflags = s.eflags := rfl
@[simp] theorem State.withFerr_ne (b : Bool) : (s.withFerr b).ne = s.ne := rfl
@[simp] theorem State.withFerr_mode (b : Bool) : (s.withFerr b).mode = s.mode := rfl
@[simp] theorem State.withFerr_code32 (b : Bool) : (s.withFerr b).code32 = s.code32 := rfl
@[simp] theorem State.withFerr_ignne (b : Bool) : (s.withFerr b).ignne = s.ignne := rfl
@[simp] theorem State.withFerr_ferr (b : Bool) : (s.withFerr b).ferr = b := rfl
@[simp] theorem State.withFerr_event (b : Bool) : (s.withFerr b).event = s.event := rfl
@[simp] theorem State.withFerr_mem (b : Bool) : (s.withFerr b).mem = s.mem := rfl
@[simp] theorem State.withFerr_params (b : Bool) : (s.withFerr b).params = s.params := rfl
@[simp] theorem State.withFerr_draws (b : Bool) : (s.withFerr b).draws = s.draws := rfl

/-! ### withTag -/

@[simp] theorem State.withTag_regs (k : StIdx) (t : Tag) : (s.withTag k t).regs = s.regs := rfl
@[simp] theorem State.withTag_tags (k : StIdx) (t : Tag) : (s.withTag k t).tags = s.tags.set k.toFin t := rfl
@[simp] theorem State.withTag_sw (k : StIdx) (t : Tag) : (s.withTag k t).sw = s.sw := rfl
@[simp] theorem State.withTag_cw (k : StIdx) (t : Tag) : (s.withTag k t).cw = s.cw := rfl
@[simp] theorem State.withTag_fip (k : StIdx) (t : Tag) : (s.withTag k t).fip = s.fip := rfl
@[simp] theorem State.withTag_fdp (k : StIdx) (t : Tag) : (s.withTag k t).fdp = s.fdp := rfl
@[simp] theorem State.withTag_fop (k : StIdx) (t : Tag) : (s.withTag k t).fop = s.fop := rfl
@[simp] theorem State.withTag_gprs (k : StIdx) (t : Tag) : (s.withTag k t).gprs = s.gprs := rfl
@[simp] theorem State.withTag_segs (k : StIdx) (t : Tag) : (s.withTag k t).segs = s.segs := rfl
@[simp] theorem State.withTag_eip (k : StIdx) (t : Tag) : (s.withTag k t).eip = s.eip := rfl
@[simp] theorem State.withTag_eflags (k : StIdx) (t : Tag) : (s.withTag k t).eflags = s.eflags := rfl
@[simp] theorem State.withTag_ne (k : StIdx) (t : Tag) : (s.withTag k t).ne = s.ne := rfl
@[simp] theorem State.withTag_mode (k : StIdx) (t : Tag) : (s.withTag k t).mode = s.mode := rfl
@[simp] theorem State.withTag_code32 (k : StIdx) (t : Tag) : (s.withTag k t).code32 = s.code32 := rfl
@[simp] theorem State.withTag_ignne (k : StIdx) (t : Tag) : (s.withTag k t).ignne = s.ignne := rfl
@[simp] theorem State.withTag_ferr (k : StIdx) (t : Tag) : (s.withTag k t).ferr = s.ferr := rfl
@[simp] theorem State.withTag_event (k : StIdx) (t : Tag) : (s.withTag k t).event = s.event := rfl
@[simp] theorem State.withTag_mem (k : StIdx) (t : Tag) : (s.withTag k t).mem = s.mem := rfl
@[simp] theorem State.withTag_params (k : StIdx) (t : Tag) : (s.withTag k t).params = s.params := rfl
@[simp] theorem State.withTag_draws (k : StIdx) (t : Tag) : (s.withTag k t).draws = s.draws := rfl

/-! ### withTags -/

@[simp] theorem State.withTags_regs (t : Vector Tag 8) : (s.withTags t).regs = s.regs := rfl
@[simp] theorem State.withTags_tags (t : Vector Tag 8) : (s.withTags t).tags = t := rfl
@[simp] theorem State.withTags_sw (t : Vector Tag 8) : (s.withTags t).sw = s.sw := rfl
@[simp] theorem State.withTags_cw (t : Vector Tag 8) : (s.withTags t).cw = s.cw := rfl
@[simp] theorem State.withTags_fip (t : Vector Tag 8) : (s.withTags t).fip = s.fip := rfl
@[simp] theorem State.withTags_fdp (t : Vector Tag 8) : (s.withTags t).fdp = s.fdp := rfl
@[simp] theorem State.withTags_fop (t : Vector Tag 8) : (s.withTags t).fop = s.fop := rfl
@[simp] theorem State.withTags_gprs (t : Vector Tag 8) : (s.withTags t).gprs = s.gprs := rfl
@[simp] theorem State.withTags_segs (t : Vector Tag 8) : (s.withTags t).segs = s.segs := rfl
@[simp] theorem State.withTags_eip (t : Vector Tag 8) : (s.withTags t).eip = s.eip := rfl
@[simp] theorem State.withTags_eflags (t : Vector Tag 8) : (s.withTags t).eflags = s.eflags := rfl
@[simp] theorem State.withTags_ne (t : Vector Tag 8) : (s.withTags t).ne = s.ne := rfl
@[simp] theorem State.withTags_mode (t : Vector Tag 8) : (s.withTags t).mode = s.mode := rfl
@[simp] theorem State.withTags_code32 (t : Vector Tag 8) : (s.withTags t).code32 = s.code32 := rfl
@[simp] theorem State.withTags_ignne (t : Vector Tag 8) : (s.withTags t).ignne = s.ignne := rfl
@[simp] theorem State.withTags_ferr (t : Vector Tag 8) : (s.withTags t).ferr = s.ferr := rfl
@[simp] theorem State.withTags_event (t : Vector Tag 8) : (s.withTags t).event = s.event := rfl
@[simp] theorem State.withTags_mem (t : Vector Tag 8) : (s.withTags t).mem = s.mem := rfl
@[simp] theorem State.withTags_params (t : Vector Tag 8) : (s.withTags t).params = s.params := rfl
@[simp] theorem State.withTags_draws (t : Vector Tag 8) : (s.withTags t).draws = s.draws := rfl

/-! ### withRegs -/

@[simp] theorem State.withRegs_regs (r : Vector Ext 8) : (s.withRegs r).regs = r := rfl
@[simp] theorem State.withRegs_tags (r : Vector Ext 8) : (s.withRegs r).tags = s.tags := rfl
@[simp] theorem State.withRegs_sw (r : Vector Ext 8) : (s.withRegs r).sw = s.sw := rfl
@[simp] theorem State.withRegs_cw (r : Vector Ext 8) : (s.withRegs r).cw = s.cw := rfl
@[simp] theorem State.withRegs_fip (r : Vector Ext 8) : (s.withRegs r).fip = s.fip := rfl
@[simp] theorem State.withRegs_fdp (r : Vector Ext 8) : (s.withRegs r).fdp = s.fdp := rfl
@[simp] theorem State.withRegs_fop (r : Vector Ext 8) : (s.withRegs r).fop = s.fop := rfl
@[simp] theorem State.withRegs_gprs (r : Vector Ext 8) : (s.withRegs r).gprs = s.gprs := rfl
@[simp] theorem State.withRegs_segs (r : Vector Ext 8) : (s.withRegs r).segs = s.segs := rfl
@[simp] theorem State.withRegs_eip (r : Vector Ext 8) : (s.withRegs r).eip = s.eip := rfl
@[simp] theorem State.withRegs_eflags (r : Vector Ext 8) : (s.withRegs r).eflags = s.eflags := rfl
@[simp] theorem State.withRegs_ne (r : Vector Ext 8) : (s.withRegs r).ne = s.ne := rfl
@[simp] theorem State.withRegs_mode (r : Vector Ext 8) : (s.withRegs r).mode = s.mode := rfl
@[simp] theorem State.withRegs_code32 (r : Vector Ext 8) : (s.withRegs r).code32 = s.code32 := rfl
@[simp] theorem State.withRegs_ignne (r : Vector Ext 8) : (s.withRegs r).ignne = s.ignne := rfl
@[simp] theorem State.withRegs_ferr (r : Vector Ext 8) : (s.withRegs r).ferr = s.ferr := rfl
@[simp] theorem State.withRegs_event (r : Vector Ext 8) : (s.withRegs r).event = s.event := rfl
@[simp] theorem State.withRegs_mem (r : Vector Ext 8) : (s.withRegs r).mem = s.mem := rfl
@[simp] theorem State.withRegs_params (r : Vector Ext 8) : (s.withRegs r).params = s.params := rfl
@[simp] theorem State.withRegs_draws (r : Vector Ext 8) : (s.withRegs r).draws = s.draws := rfl

/-! ### writePhys -/

@[simp] theorem State.writePhys_regs (k : StIdx) (v : Ext) : (s.writePhys k v).regs = s.regs.set k.toFin v := rfl
@[simp] theorem State.writePhys_tags (k : StIdx) (v : Ext) : (s.writePhys k v).tags = s.tags.set k.toFin (tagOf v) := rfl
@[simp] theorem State.writePhys_sw (k : StIdx) (v : Ext) : (s.writePhys k v).sw = s.sw := rfl
@[simp] theorem State.writePhys_cw (k : StIdx) (v : Ext) : (s.writePhys k v).cw = s.cw := rfl
@[simp] theorem State.writePhys_fip (k : StIdx) (v : Ext) : (s.writePhys k v).fip = s.fip := rfl
@[simp] theorem State.writePhys_fdp (k : StIdx) (v : Ext) : (s.writePhys k v).fdp = s.fdp := rfl
@[simp] theorem State.writePhys_fop (k : StIdx) (v : Ext) : (s.writePhys k v).fop = s.fop := rfl
@[simp] theorem State.writePhys_gprs (k : StIdx) (v : Ext) : (s.writePhys k v).gprs = s.gprs := rfl
@[simp] theorem State.writePhys_segs (k : StIdx) (v : Ext) : (s.writePhys k v).segs = s.segs := rfl
@[simp] theorem State.writePhys_eip (k : StIdx) (v : Ext) : (s.writePhys k v).eip = s.eip := rfl
@[simp] theorem State.writePhys_eflags (k : StIdx) (v : Ext) : (s.writePhys k v).eflags = s.eflags := rfl
@[simp] theorem State.writePhys_ne (k : StIdx) (v : Ext) : (s.writePhys k v).ne = s.ne := rfl
@[simp] theorem State.writePhys_mode (k : StIdx) (v : Ext) : (s.writePhys k v).mode = s.mode := rfl
@[simp] theorem State.writePhys_code32 (k : StIdx) (v : Ext) : (s.writePhys k v).code32 = s.code32 := rfl
@[simp] theorem State.writePhys_ignne (k : StIdx) (v : Ext) : (s.writePhys k v).ignne = s.ignne := rfl
@[simp] theorem State.writePhys_ferr (k : StIdx) (v : Ext) : (s.writePhys k v).ferr = s.ferr := rfl
@[simp] theorem State.writePhys_event (k : StIdx) (v : Ext) : (s.writePhys k v).event = s.event := rfl
@[simp] theorem State.writePhys_mem (k : StIdx) (v : Ext) : (s.writePhys k v).mem = s.mem := rfl
@[simp] theorem State.writePhys_params (k : StIdx) (v : Ext) : (s.writePhys k v).params = s.params := rfl
@[simp] theorem State.writePhys_draws (k : StIdx) (v : Ext) : (s.writePhys k v).draws = s.draws := rfl

/-! ### withTop -/

@[simp] theorem State.withTop_regs (x : BitVec 3) : (s.withTop x).regs = s.regs := rfl
@[simp] theorem State.withTop_tags (x : BitVec 3) : (s.withTop x).tags = s.tags := rfl
@[simp] theorem State.withTop_sw (x : BitVec 3) : (s.withTop x).sw = { s.sw with top := x } := rfl
@[simp] theorem State.withTop_cw (x : BitVec 3) : (s.withTop x).cw = s.cw := rfl
@[simp] theorem State.withTop_fip (x : BitVec 3) : (s.withTop x).fip = s.fip := rfl
@[simp] theorem State.withTop_fdp (x : BitVec 3) : (s.withTop x).fdp = s.fdp := rfl
@[simp] theorem State.withTop_fop (x : BitVec 3) : (s.withTop x).fop = s.fop := rfl
@[simp] theorem State.withTop_gprs (x : BitVec 3) : (s.withTop x).gprs = s.gprs := rfl
@[simp] theorem State.withTop_segs (x : BitVec 3) : (s.withTop x).segs = s.segs := rfl
@[simp] theorem State.withTop_eip (x : BitVec 3) : (s.withTop x).eip = s.eip := rfl
@[simp] theorem State.withTop_eflags (x : BitVec 3) : (s.withTop x).eflags = s.eflags := rfl
@[simp] theorem State.withTop_ne (x : BitVec 3) : (s.withTop x).ne = s.ne := rfl
@[simp] theorem State.withTop_mode (x : BitVec 3) : (s.withTop x).mode = s.mode := rfl
@[simp] theorem State.withTop_code32 (x : BitVec 3) : (s.withTop x).code32 = s.code32 := rfl
@[simp] theorem State.withTop_ignne (x : BitVec 3) : (s.withTop x).ignne = s.ignne := rfl
@[simp] theorem State.withTop_ferr (x : BitVec 3) : (s.withTop x).ferr = s.ferr := rfl
@[simp] theorem State.withTop_event (x : BitVec 3) : (s.withTop x).event = s.event := rfl
@[simp] theorem State.withTop_mem (x : BitVec 3) : (s.withTop x).mem = s.mem := rfl
@[simp] theorem State.withTop_params (x : BitVec 3) : (s.withTop x).params = s.params := rfl
@[simp] theorem State.withTop_draws (x : BitVec 3) : (s.withTop x).draws = s.draws := rfl

/-! ### setC1 -/

@[simp] theorem State.setC1_regs (b : Bool) : (s.setC1 b).regs = s.regs := rfl
@[simp] theorem State.setC1_tags (b : Bool) : (s.setC1 b).tags = s.tags := rfl
@[simp] theorem State.setC1_sw (b : Bool) : (s.setC1 b).sw = { s.sw with c1 := b } := rfl
@[simp] theorem State.setC1_cw (b : Bool) : (s.setC1 b).cw = s.cw := rfl
@[simp] theorem State.setC1_fip (b : Bool) : (s.setC1 b).fip = s.fip := rfl
@[simp] theorem State.setC1_fdp (b : Bool) : (s.setC1 b).fdp = s.fdp := rfl
@[simp] theorem State.setC1_fop (b : Bool) : (s.setC1 b).fop = s.fop := rfl
@[simp] theorem State.setC1_gprs (b : Bool) : (s.setC1 b).gprs = s.gprs := rfl
@[simp] theorem State.setC1_segs (b : Bool) : (s.setC1 b).segs = s.segs := rfl
@[simp] theorem State.setC1_eip (b : Bool) : (s.setC1 b).eip = s.eip := rfl
@[simp] theorem State.setC1_eflags (b : Bool) : (s.setC1 b).eflags = s.eflags := rfl
@[simp] theorem State.setC1_ne (b : Bool) : (s.setC1 b).ne = s.ne := rfl
@[simp] theorem State.setC1_mode (b : Bool) : (s.setC1 b).mode = s.mode := rfl
@[simp] theorem State.setC1_code32 (b : Bool) : (s.setC1 b).code32 = s.code32 := rfl
@[simp] theorem State.setC1_ignne (b : Bool) : (s.setC1 b).ignne = s.ignne := rfl
@[simp] theorem State.setC1_ferr (b : Bool) : (s.setC1 b).ferr = s.ferr := rfl
@[simp] theorem State.setC1_event (b : Bool) : (s.setC1 b).event = s.event := rfl
@[simp] theorem State.setC1_mem (b : Bool) : (s.setC1 b).mem = s.mem := rfl
@[simp] theorem State.setC1_params (b : Bool) : (s.setC1 b).params = s.params := rfl
@[simp] theorem State.setC1_draws (b : Bool) : (s.setC1 b).draws = s.draws := rfl

/-! ### setC2 -/

@[simp] theorem State.setC2_regs (b : Bool) : (s.setC2 b).regs = s.regs := rfl
@[simp] theorem State.setC2_tags (b : Bool) : (s.setC2 b).tags = s.tags := rfl
@[simp] theorem State.setC2_sw (b : Bool) : (s.setC2 b).sw = { s.sw with c2 := b } := rfl
@[simp] theorem State.setC2_cw (b : Bool) : (s.setC2 b).cw = s.cw := rfl
@[simp] theorem State.setC2_fip (b : Bool) : (s.setC2 b).fip = s.fip := rfl
@[simp] theorem State.setC2_fdp (b : Bool) : (s.setC2 b).fdp = s.fdp := rfl
@[simp] theorem State.setC2_fop (b : Bool) : (s.setC2 b).fop = s.fop := rfl
@[simp] theorem State.setC2_gprs (b : Bool) : (s.setC2 b).gprs = s.gprs := rfl
@[simp] theorem State.setC2_segs (b : Bool) : (s.setC2 b).segs = s.segs := rfl
@[simp] theorem State.setC2_eip (b : Bool) : (s.setC2 b).eip = s.eip := rfl
@[simp] theorem State.setC2_eflags (b : Bool) : (s.setC2 b).eflags = s.eflags := rfl
@[simp] theorem State.setC2_ne (b : Bool) : (s.setC2 b).ne = s.ne := rfl
@[simp] theorem State.setC2_mode (b : Bool) : (s.setC2 b).mode = s.mode := rfl
@[simp] theorem State.setC2_code32 (b : Bool) : (s.setC2 b).code32 = s.code32 := rfl
@[simp] theorem State.setC2_ignne (b : Bool) : (s.setC2 b).ignne = s.ignne := rfl
@[simp] theorem State.setC2_ferr (b : Bool) : (s.setC2 b).ferr = s.ferr := rfl
@[simp] theorem State.setC2_event (b : Bool) : (s.setC2 b).event = s.event := rfl
@[simp] theorem State.setC2_mem (b : Bool) : (s.setC2 b).mem = s.mem := rfl
@[simp] theorem State.setC2_params (b : Bool) : (s.setC2 b).params = s.params := rfl
@[simp] theorem State.setC2_draws (b : Bool) : (s.setC2 b).draws = s.draws := rfl

/-! ### setCodes -/

@[simp] theorem State.setCodes_regs (x y z : Bool) : (s.setCodes x y z).regs = s.regs := rfl
@[simp] theorem State.setCodes_tags (x y z : Bool) : (s.setCodes x y z).tags = s.tags := rfl
@[simp] theorem State.setCodes_sw (x y z : Bool) : (s.setCodes x y z).sw = { s.sw with c3 := x, c2 := y, c0 := z } := rfl
@[simp] theorem State.setCodes_cw (x y z : Bool) : (s.setCodes x y z).cw = s.cw := rfl
@[simp] theorem State.setCodes_fip (x y z : Bool) : (s.setCodes x y z).fip = s.fip := rfl
@[simp] theorem State.setCodes_fdp (x y z : Bool) : (s.setCodes x y z).fdp = s.fdp := rfl
@[simp] theorem State.setCodes_fop (x y z : Bool) : (s.setCodes x y z).fop = s.fop := rfl
@[simp] theorem State.setCodes_gprs (x y z : Bool) : (s.setCodes x y z).gprs = s.gprs := rfl
@[simp] theorem State.setCodes_segs (x y z : Bool) : (s.setCodes x y z).segs = s.segs := rfl
@[simp] theorem State.setCodes_eip (x y z : Bool) : (s.setCodes x y z).eip = s.eip := rfl
@[simp] theorem State.setCodes_eflags (x y z : Bool) : (s.setCodes x y z).eflags = s.eflags := rfl
@[simp] theorem State.setCodes_ne (x y z : Bool) : (s.setCodes x y z).ne = s.ne := rfl
@[simp] theorem State.setCodes_mode (x y z : Bool) : (s.setCodes x y z).mode = s.mode := rfl
@[simp] theorem State.setCodes_code32 (x y z : Bool) : (s.setCodes x y z).code32 = s.code32 := rfl
@[simp] theorem State.setCodes_ignne (x y z : Bool) : (s.setCodes x y z).ignne = s.ignne := rfl
@[simp] theorem State.setCodes_ferr (x y z : Bool) : (s.setCodes x y z).ferr = s.ferr := rfl
@[simp] theorem State.setCodes_event (x y z : Bool) : (s.setCodes x y z).event = s.event := rfl
@[simp] theorem State.setCodes_mem (x y z : Bool) : (s.setCodes x y z).mem = s.mem := rfl
@[simp] theorem State.setCodes_params (x y z : Bool) : (s.setCodes x y z).params = s.params := rfl
@[simp] theorem State.setCodes_draws (x y z : Bool) : (s.setCodes x y z).draws = s.draws := rfl

/-! ### setEflags -/

@[simp] theorem State.setEflags_regs (x y z : Bool) : (s.setEflags x y z).regs = s.regs := rfl
@[simp] theorem State.setEflags_tags (x y z : Bool) : (s.setEflags x y z).tags = s.tags := rfl
@[simp] theorem State.setEflags_sw (x y z : Bool) : (s.setEflags x y z).sw = s.sw := rfl
@[simp] theorem State.setEflags_cw (x y z : Bool) : (s.setEflags x y z).cw = s.cw := rfl
@[simp] theorem State.setEflags_fip (x y z : Bool) : (s.setEflags x y z).fip = s.fip := rfl
@[simp] theorem State.setEflags_fdp (x y z : Bool) : (s.setEflags x y z).fdp = s.fdp := rfl
@[simp] theorem State.setEflags_fop (x y z : Bool) : (s.setEflags x y z).fop = s.fop := rfl
@[simp] theorem State.setEflags_gprs (x y z : Bool) : (s.setEflags x y z).gprs = s.gprs := rfl
@[simp] theorem State.setEflags_segs (x y z : Bool) : (s.setEflags x y z).segs = s.segs := rfl
@[simp] theorem State.setEflags_eip (x y z : Bool) : (s.setEflags x y z).eip = s.eip := rfl
@[simp] theorem State.setEflags_eflags (x y z : Bool) : (s.setEflags x y z).eflags = { zf := x, pf := y, cf := z } := rfl
@[simp] theorem State.setEflags_ne (x y z : Bool) : (s.setEflags x y z).ne = s.ne := rfl
@[simp] theorem State.setEflags_mode (x y z : Bool) : (s.setEflags x y z).mode = s.mode := rfl
@[simp] theorem State.setEflags_code32 (x y z : Bool) : (s.setEflags x y z).code32 = s.code32 := rfl
@[simp] theorem State.setEflags_ignne (x y z : Bool) : (s.setEflags x y z).ignne = s.ignne := rfl
@[simp] theorem State.setEflags_ferr (x y z : Bool) : (s.setEflags x y z).ferr = s.ferr := rfl
@[simp] theorem State.setEflags_event (x y z : Bool) : (s.setEflags x y z).event = s.event := rfl
@[simp] theorem State.setEflags_mem (x y z : Bool) : (s.setEflags x y z).mem = s.mem := rfl
@[simp] theorem State.setEflags_params (x y z : Bool) : (s.setEflags x y z).params = s.params := rfl
@[simp] theorem State.setEflags_draws (x y z : Bool) : (s.setEflags x y z).draws = s.draws := rfl

/-! ### setAx -/

@[simp] theorem State.setAx_regs (v : Word16) : (s.setAx v).regs = s.regs := rfl
@[simp] theorem State.setAx_tags (v : Word16) : (s.setAx v).tags = s.tags := rfl
@[simp] theorem State.setAx_sw (v : Word16) : (s.setAx v).sw = s.sw := rfl
@[simp] theorem State.setAx_cw (v : Word16) : (s.setAx v).cw = s.cw := rfl
@[simp] theorem State.setAx_fip (v : Word16) : (s.setAx v).fip = s.fip := rfl
@[simp] theorem State.setAx_fdp (v : Word16) : (s.setAx v).fdp = s.fdp := rfl
@[simp] theorem State.setAx_fop (v : Word16) : (s.setAx v).fop = s.fop := rfl
@[simp] theorem State.setAx_gprs (v : Word16) : (s.setAx v).gprs = { s.gprs with eax := s.gprs.eax.extractLsb' 16 16 ++ v } := rfl
@[simp] theorem State.setAx_segs (v : Word16) : (s.setAx v).segs = s.segs := rfl
@[simp] theorem State.setAx_eip (v : Word16) : (s.setAx v).eip = s.eip := rfl
@[simp] theorem State.setAx_eflags (v : Word16) : (s.setAx v).eflags = s.eflags := rfl
@[simp] theorem State.setAx_ne (v : Word16) : (s.setAx v).ne = s.ne := rfl
@[simp] theorem State.setAx_mode (v : Word16) : (s.setAx v).mode = s.mode := rfl
@[simp] theorem State.setAx_code32 (v : Word16) : (s.setAx v).code32 = s.code32 := rfl
@[simp] theorem State.setAx_ignne (v : Word16) : (s.setAx v).ignne = s.ignne := rfl
@[simp] theorem State.setAx_ferr (v : Word16) : (s.setAx v).ferr = s.ferr := rfl
@[simp] theorem State.setAx_event (v : Word16) : (s.setAx v).event = s.event := rfl
@[simp] theorem State.setAx_mem (v : Word16) : (s.setAx v).mem = s.mem := rfl
@[simp] theorem State.setAx_params (v : Word16) : (s.setAx v).params = s.params := rfl
@[simp] theorem State.setAx_draws (v : Word16) : (s.setAx v).draws = s.draws := rfl

/-! ### withPointers -/

@[simp] theorem State.withPointers_regs (p q : FarPtr) (o : BitVec 11) : (s.withPointers p q o).regs = s.regs := rfl
@[simp] theorem State.withPointers_tags (p q : FarPtr) (o : BitVec 11) : (s.withPointers p q o).tags = s.tags := rfl
@[simp] theorem State.withPointers_sw (p q : FarPtr) (o : BitVec 11) : (s.withPointers p q o).sw = s.sw := rfl
@[simp] theorem State.withPointers_cw (p q : FarPtr) (o : BitVec 11) : (s.withPointers p q o).cw = s.cw := rfl
@[simp] theorem State.withPointers_fip (p q : FarPtr) (o : BitVec 11) : (s.withPointers p q o).fip = p := rfl
@[simp] theorem State.withPointers_fdp (p q : FarPtr) (o : BitVec 11) : (s.withPointers p q o).fdp = q := rfl
@[simp] theorem State.withPointers_fop (p q : FarPtr) (o : BitVec 11) : (s.withPointers p q o).fop = o := rfl
@[simp] theorem State.withPointers_gprs (p q : FarPtr) (o : BitVec 11) : (s.withPointers p q o).gprs = s.gprs := rfl
@[simp] theorem State.withPointers_segs (p q : FarPtr) (o : BitVec 11) : (s.withPointers p q o).segs = s.segs := rfl
@[simp] theorem State.withPointers_eip (p q : FarPtr) (o : BitVec 11) : (s.withPointers p q o).eip = s.eip := rfl
@[simp] theorem State.withPointers_eflags (p q : FarPtr) (o : BitVec 11) : (s.withPointers p q o).eflags = s.eflags := rfl
@[simp] theorem State.withPointers_ne (p q : FarPtr) (o : BitVec 11) : (s.withPointers p q o).ne = s.ne := rfl
@[simp] theorem State.withPointers_mode (p q : FarPtr) (o : BitVec 11) : (s.withPointers p q o).mode = s.mode := rfl
@[simp] theorem State.withPointers_code32 (p q : FarPtr) (o : BitVec 11) : (s.withPointers p q o).code32 = s.code32 := rfl
@[simp] theorem State.withPointers_ignne (p q : FarPtr) (o : BitVec 11) : (s.withPointers p q o).ignne = s.ignne := rfl
@[simp] theorem State.withPointers_ferr (p q : FarPtr) (o : BitVec 11) : (s.withPointers p q o).ferr = s.ferr := rfl
@[simp] theorem State.withPointers_event (p q : FarPtr) (o : BitVec 11) : (s.withPointers p q o).event = s.event := rfl
@[simp] theorem State.withPointers_mem (p q : FarPtr) (o : BitVec 11) : (s.withPointers p q o).mem = s.mem := rfl
@[simp] theorem State.withPointers_params (p q : FarPtr) (o : BitVec 11) : (s.withPointers p q o).params = s.params := rfl
@[simp] theorem State.withPointers_draws (p q : FarPtr) (o : BitVec 11) : (s.withPointers p q o).draws = s.draws := rfl

/-! ### withEvent -/

@[simp] theorem State.withEvent_regs (e : HostEvent) : (s.withEvent e).regs = s.regs := rfl
@[simp] theorem State.withEvent_tags (e : HostEvent) : (s.withEvent e).tags = s.tags := rfl
@[simp] theorem State.withEvent_sw (e : HostEvent) : (s.withEvent e).sw = s.sw := rfl
@[simp] theorem State.withEvent_cw (e : HostEvent) : (s.withEvent e).cw = s.cw := rfl
@[simp] theorem State.withEvent_fip (e : HostEvent) : (s.withEvent e).fip = s.fip := rfl
@[simp] theorem State.withEvent_fdp (e : HostEvent) : (s.withEvent e).fdp = s.fdp := rfl
@[simp] theorem State.withEvent_fop (e : HostEvent) : (s.withEvent e).fop = s.fop := rfl
@[simp] theorem State.withEvent_gprs (e : HostEvent) : (s.withEvent e).gprs = s.gprs := rfl
@[simp] theorem State.withEvent_segs (e : HostEvent) : (s.withEvent e).segs = s.segs := rfl
@[simp] theorem State.withEvent_eip (e : HostEvent) : (s.withEvent e).eip = s.eip := rfl
@[simp] theorem State.withEvent_eflags (e : HostEvent) : (s.withEvent e).eflags = s.eflags := rfl
@[simp] theorem State.withEvent_ne (e : HostEvent) : (s.withEvent e).ne = s.ne := rfl
@[simp] theorem State.withEvent_mode (e : HostEvent) : (s.withEvent e).mode = s.mode := rfl
@[simp] theorem State.withEvent_code32 (e : HostEvent) : (s.withEvent e).code32 = s.code32 := rfl
@[simp] theorem State.withEvent_ignne (e : HostEvent) : (s.withEvent e).ignne = s.ignne := rfl
@[simp] theorem State.withEvent_ferr (e : HostEvent) : (s.withEvent e).ferr = s.ferr := rfl
@[simp] theorem State.withEvent_event (e : HostEvent) : (s.withEvent e).event = e := rfl
@[simp] theorem State.withEvent_mem (e : HostEvent) : (s.withEvent e).mem = s.mem := rfl
@[simp] theorem State.withEvent_params (e : HostEvent) : (s.withEvent e).params = s.params := rfl
@[simp] theorem State.withEvent_draws (e : HostEvent) : (s.withEvent e).draws = s.draws := rfl

/-! ### advance -/

@[simp] theorem State.advance_regs (n : Nat) : (s.advance n).regs = s.regs := rfl
@[simp] theorem State.advance_tags (n : Nat) : (s.advance n).tags = s.tags := rfl
@[simp] theorem State.advance_sw (n : Nat) : (s.advance n).sw = s.sw := rfl
@[simp] theorem State.advance_cw (n : Nat) : (s.advance n).cw = s.cw := rfl
@[simp] theorem State.advance_fip (n : Nat) : (s.advance n).fip = s.fip := rfl
@[simp] theorem State.advance_fdp (n : Nat) : (s.advance n).fdp = s.fdp := rfl
@[simp] theorem State.advance_fop (n : Nat) : (s.advance n).fop = s.fop := rfl
@[simp] theorem State.advance_gprs (n : Nat) : (s.advance n).gprs = s.gprs := rfl
@[simp] theorem State.advance_segs (n : Nat) : (s.advance n).segs = s.segs := rfl
@[simp] theorem State.advance_eip (n : Nat) : (s.advance n).eip = s.eip + BitVec.ofNat 32 n := rfl
@[simp] theorem State.advance_eflags (n : Nat) : (s.advance n).eflags = s.eflags := rfl
@[simp] theorem State.advance_ne (n : Nat) : (s.advance n).ne = s.ne := rfl
@[simp] theorem State.advance_mode (n : Nat) : (s.advance n).mode = s.mode := rfl
@[simp] theorem State.advance_code32 (n : Nat) : (s.advance n).code32 = s.code32 := rfl
@[simp] theorem State.advance_ignne (n : Nat) : (s.advance n).ignne = s.ignne := rfl
@[simp] theorem State.advance_ferr (n : Nat) : (s.advance n).ferr = s.ferr := rfl
@[simp] theorem State.advance_event (n : Nat) : (s.advance n).event = s.event := rfl
@[simp] theorem State.advance_mem (n : Nat) : (s.advance n).mem = s.mem := rfl
@[simp] theorem State.advance_params (n : Nat) : (s.advance n).params = s.params := rfl
@[simp] theorem State.advance_draws (n : Nat) : (s.advance n).draws = s.draws + 1 := rfl

/-! ### store -/

@[simp] theorem State.store_regs (a n v : Nat) : (s.store a n v).regs = s.regs := rfl
@[simp] theorem State.store_tags (a n v : Nat) : (s.store a n v).tags = s.tags := rfl
@[simp] theorem State.store_sw (a n v : Nat) : (s.store a n v).sw = s.sw := rfl
@[simp] theorem State.store_cw (a n v : Nat) : (s.store a n v).cw = s.cw := rfl
@[simp] theorem State.store_fip (a n v : Nat) : (s.store a n v).fip = s.fip := rfl
@[simp] theorem State.store_fdp (a n v : Nat) : (s.store a n v).fdp = s.fdp := rfl
@[simp] theorem State.store_fop (a n v : Nat) : (s.store a n v).fop = s.fop := rfl
@[simp] theorem State.store_gprs (a n v : Nat) : (s.store a n v).gprs = s.gprs := rfl
@[simp] theorem State.store_segs (a n v : Nat) : (s.store a n v).segs = s.segs := rfl
@[simp] theorem State.store_eip (a n v : Nat) : (s.store a n v).eip = s.eip := rfl
@[simp] theorem State.store_eflags (a n v : Nat) : (s.store a n v).eflags = s.eflags := rfl
@[simp] theorem State.store_ne (a n v : Nat) : (s.store a n v).ne = s.ne := rfl
@[simp] theorem State.store_mode (a n v : Nat) : (s.store a n v).mode = s.mode := rfl
@[simp] theorem State.store_code32 (a n v : Nat) : (s.store a n v).code32 = s.code32 := rfl
@[simp] theorem State.store_ignne (a n v : Nat) : (s.store a n v).ignne = s.ignne := rfl
@[simp] theorem State.store_ferr (a n v : Nat) : (s.store a n v).ferr = s.ferr := rfl
@[simp] theorem State.store_event (a n v : Nat) : (s.store a n v).event = s.event := rfl
@[simp] theorem State.store_mem (a n v : Nat) : (s.store a n v).mem = memWrite s.mem a n v := rfl
@[simp] theorem State.store_params (a n v : Nat) : (s.store a n v).params = s.params := rfl
@[simp] theorem State.store_draws (a n v : Nat) : (s.store a n v).draws = s.draws := rfl

end Sys2Proof.Machine
end

