-- ==== Sys2Proof/Laws/Updates.lean ====
section
/-! SUPPORT. What the numeric part of an instruction can do, said once: it is a run of the updates listed here, and each
shared operation is a run that stays within what its caller allows. -/

namespace Sys2Proof.Machine

/-! ### Signal -/

/-- Signal touches only the status word and FERR#. -/
theorem State.signal_eq (s : State) (c : Cond) : s.signal c = (s.withSw (s.signal c).sw).withFerr (s.signal c).ferr := by
  unfold State.signal; split <;> rfl

@[simp] theorem StatusWord.setFlag_top (w : StatusWord) (c : Cond) : (w.setFlag c).top = w.top := by cases c <;> rfl

@[simp] theorem State.raiseEs_sw (s : State) : s.raiseEs.sw = { s.sw with es := true, b := true } := rfl

@[simp] theorem State.raiseEs_ferr (s : State) : s.raiseEs.ferr = s.ferrPending := rfl

/-- The status word after Signal (R405). -/
theorem State.signal_sw (s : State) (c : Cond) :
    (s.signal c).sw =
      if s.masked c then s.sw.setFlag c else { s.sw.setFlag c with es := true, b := true } := by
  unfold State.signal; split <;> rfl

@[simp] theorem State.signal_top (s : State) (c : Cond) : (s.signal c).sw.top = s.sw.top := by
  rw [State.signal_sw]; split <;> simp

@[simp] theorem State.signal_regs (s : State) (c : Cond) : (s.signal c).regs = s.regs := by rw [State.signal_eq]; rfl
@[simp] theorem State.signal_tags (s : State) (c : Cond) : (s.signal c).tags = s.tags := by rw [State.signal_eq]; rfl
@[simp] theorem State.signal_cw (s : State) (c : Cond) : (s.signal c).cw = s.cw := by rw [State.signal_eq]; rfl
@[simp] theorem State.signal_fip (s : State) (c : Cond) : (s.signal c).fip = s.fip := by rw [State.signal_eq]; rfl
@[simp] theorem State.signal_fdp (s : State) (c : Cond) : (s.signal c).fdp = s.fdp := by rw [State.signal_eq]; rfl
@[simp] theorem State.signal_fop (s : State) (c : Cond) : (s.signal c).fop = s.fop := by rw [State.signal_eq]; rfl
@[simp] theorem State.signal_gprs (s : State) (c : Cond) : (s.signal c).gprs = s.gprs := by rw [State.signal_eq]; rfl
@[simp] theorem State.signal_segs (s : State) (c : Cond) : (s.signal c).segs = s.segs := by rw [State.signal_eq]; rfl
@[simp] theorem State.signal_eip (s : State) (c : Cond) : (s.signal c).eip = s.eip := by rw [State.signal_eq]; rfl
@[simp] theorem State.signal_eflags (s : State) (c : Cond) : (s.signal c).eflags = s.eflags := by
  rw [State.signal_eq]; rfl
@[simp] theorem State.signal_ne (s : State) (c : Cond) : (s.signal c).ne = s.ne := by rw [State.signal_eq]; rfl
@[simp] theorem State.signal_mode (s : State) (c : Cond) : (s.signal c).mode = s.mode := by rw [State.signal_eq]; rfl
@[simp] theorem State.signal_code32 (s : State) (c : Cond) : (s.signal c).code32 = s.code32 := by
  rw [State.signal_eq]; rfl
@[simp] theorem State.signal_ignne (s : State) (c : Cond) : (s.signal c).ignne = s.ignne := by rw [State.signal_eq]; rfl
@[simp] theorem State.signal_event (s : State) (c : Cond) : (s.signal c).event = s.event := by rw [State.signal_eq]; rfl
@[simp] theorem State.signal_mem (s : State) (c : Cond) : (s.signal c).mem = s.mem := by rw [State.signal_eq]; rfl
@[simp] theorem State.signal_params (s : State) (c : Cond) : (s.signal c).params = s.params := by
  rw [State.signal_eq]; rfl
@[simp] theorem State.signal_draws (s : State) (c : Cond) : (s.signal c).draws = s.draws := by rw [State.signal_eq]; rfl

@[simp] theorem State.freeCodes_top (s : State) : s.freeCodes.sw.top = s.sw.top := rfl
@[simp] theorem State.freeC1_top (s : State) : s.freeC1.sw.top = s.sw.top := rfl

/-! ### Runs of updates -/

/-- What a run may change: the conditions it may signal, the physical registers and the values of TOP it may write, the
bytes it may store, and whether it may write EFLAGS. -/
structure Allowed where
  conds : List Cond
  regs : List StIdx
  tops : List (BitVec 3)
  stored : Option (Nat × Nat)
  eflags : Bool

/-- One update of the numeric part of an instruction. -/
inductive Update (A : Allowed) : State → State → Prop where
  | signal (s : State) (c : Cond) (h : c ∈ A.conds) : Update A s (s.signal c)
  | codes (s : State) (x y z : Bool) : Update A s (s.setCodes x y z)
  | c1 (s : State) (x : Bool) : Update A s (s.setC1 x)
  | c2 (s : State) (x : Bool) : Update A s (s.setC2 x)
  | write (s : State) (k : StIdx) (v : Ext) (h : k ∈ A.regs) : Update A s (s.writePhys k v)
  | empty (s : State) (k : StIdx) (h : k ∈ A.regs) : Update A s (s.withTag k .empty)
  | top (s : State) (x : BitVec 3) (h : x ∈ A.tops) : Update A s (s.withTop x)
  | store (s : State) (a n v : Nat) (h : A.stored = some (a, n)) (hb : a + n ≤ memEnd) : Update A s (s.store a n v)
  | eflags (s : State) (x y z : Bool) (h : A.eflags = true) : Update A s (s.setEflags x y z)

/-- A run of updates. -/
abbrev Runs (A : Allowed) : State → State → Prop := Relation.ReflTransGen (Update A)

variable {A : Allowed} {s t : State}

theorem Runs.refl : Runs A s s := Relation.ReflTransGen.refl

theorem Runs.of (h : Update A s t) : Runs A s t := Relation.ReflTransGen.single h

theorem Runs.trans {u : State} (h : Runs A s t) (h' : Runs A t u) : Runs A s u := Relation.ReflTransGen.trans h h'

/-- An invariant that every update keeps holds along a run. -/
theorem Runs.keeps {P : State → Prop} (hP : ∀ u v, Update A u v → P u → P v) (h : Runs A s t) (hs : P s) : P t := by
  induction h with
  | refl => exact hs
  | tail _ hu ih => exact hP _ _ hu ih

/-- A relation that every update satisfies and that composes holds along a run. -/
theorem Runs.rel {R : State → State → Prop} (hr : ∀ u, R u u) (ht : ∀ u v w, R u v → R v w → R u w)
    (hP : ∀ u v, Update A u v → R u v) (h : Runs A s t) : R s t := by
  induction h with
  | refl => exact hr _
  | tail _ hu ih => exact ht _ _ _ ih (hP _ _ hu)

/-! ### The single updates as runs -/

theorem Runs.signal {c : Cond} (h : c ∈ A.conds) : Runs A s (s.signal c) := .of (.signal s c h)

theorem Runs.setCodes (x y z : Bool) : Runs A s (s.setCodes x y z) := .of (.codes s x y z)

theorem Runs.freeCodes : Runs A s s.freeCodes := .of (.codes s _ _ _)

theorem Runs.setC1 (x : Bool) : Runs A s (s.setC1 x) := .of (.c1 s x)

theorem Runs.freeC1 : Runs A s s.freeC1 := .of (.c1 s _)

theorem Runs.setC2 (x : Bool) : Runs A s (s.setC2 x) := .of (.c2 s x)

theorem Runs.setSt {i : StIdx} {v : Ext} (h : s.sw.top + i ∈ A.regs) : Runs A s (s.setSt i v) := .of (.write s _ v h)

/-- A run may write ST(i) of a destination and do its pop. -/
def AllowsDest (A : Allowed) (top : BitVec 3) (d : Dest) : Prop :=
  top + d.i ∈ A.regs ∧ (d.pop = true → top ∈ A.regs ∧ top + 1#3 ∈ A.tops)

/-- A run may push. -/
def AllowsPush (A : Allowed) (top : BitVec 3) : Prop := top - 1#3 ∈ A.regs ∧ top - 1#3 ∈ A.tops

theorem Runs.pop (h : s.sw.top ∈ A.regs) (h' : s.sw.top + 1#3 ∈ A.tops) : Runs A s s.pop :=
  (Runs.of (.empty s _ h)).trans (Runs.of (.top _ _ h'))

theorem Runs.push {v : Ext} (h : AllowsPush A s.sw.top) : Runs A s (s.push v) :=
  (Runs.of (.top s _ h.2)).trans (Runs.setSt (by simpa using h.1))

@[simp] theorem State.setSt_top (s : State) (i : StIdx) (v : Ext) : (s.setSt i v).sw.top = s.sw.top := rfl

theorem Runs.writeDest {d : Dest} {v : Ext} (h : AllowsDest A s.sw.top d) : Runs A s (s.writeDest d v) := by
  unfold State.writeDest
  split
  · exact (Runs.setSt h.1).trans (Runs.pop (h.2 ‹_›).1 (h.2 ‹_›).2)
  · exact Runs.setSt h.1

theorem Runs.writePush {v w : Ext} (h0 : s.sw.top ∈ A.regs) (h : AllowsPush A s.sw.top) : Runs A s (s.writePush v w) :=
  (Runs.setSt (by simpa using h0)).trans (Runs.push h)

/-! ### Responses and checks -/

theorem Runs.respond {c : Cond} {f : State → State} (hc : c ∈ A.conds) (hf : Runs A (s.signal c) (f (s.signal c))) :
    Runs A s (s.respond c f) := by
  unfold State.respond
  split
  · exact (Runs.signal hc).trans hf
  · exact Runs.signal hc

/-- The responses of an instruction stay within what is allowed, from any state with the same TOP. -/
structure AllowsResponses (A : Allowed) (top : BitVec 3) (r : Responses) : Prop where
  underflow : ∀ u : State, u.sw.top = top → Runs A u (r.underflow u)
  invalid : ∀ u : State, u.sw.top = top → Runs A u (r.invalid u)
  nan : ∀ (u : State) (v : Ext), u.sw.top = top → Runs A u (r.nan v u)

theorem AllowsDest.responses {top : BitVec 3} {d : Dest} (h : AllowsDest A top d) : AllowsResponses A top (toDest d) :=
  ⟨fun _ hu => Runs.writeDest (hu ▸ h), fun _ hu => Runs.writeDest (hu ▸ h), fun _ _ hu => Runs.writeDest (hu ▸ h)⟩

theorem AllowsPush.responses {top : BitVec 3} (h0 : top ∈ A.regs) (h : AllowsPush A top) : AllowsResponses A top toPush :=
  ⟨fun _ hu => Runs.writePush (hu ▸ h0) (hu ▸ h), fun _ hu => Runs.writePush (hu ▸ h0) (hu ▸ h),
    fun _ _ hu => Runs.writePush (hu ▸ h0) (hu ▸ h)⟩

/-- The masked response to a stack overflow. -/
theorem Runs.overflow (hc : .isOver ∈ A.conds) (h : AllowsPush A s.sw.top) :
    Runs A s (s.respond .isOver State.overflowPush) := Runs.respond hc (Runs.push (by simpa using h))

/-- The pre-operation checks: a response, or the rest of the instruction. -/
theorem Runs.preChecks {ops : List Operand} {pushes : Bool} {r : Responses} {go : State → Except Refusal State}
    (hu : .isUnder ∈ A.conds) (ho : pushes = true → .isOver ∈ A.conds ∧ AllowsPush A s.sw.top) (hi : .ia ∈ A.conds)
    (hr : AllowsResponses A s.sw.top r) (hgo : ∀ t, go s = .ok t → Runs A s t) (h : preChecks ops pushes r go s = .ok t) :
    Runs A s t := by
  unfold Machine.preChecks at h
  split at h
  · cases h; exact Runs.respond hu (hr.underflow _ (by simp))
  · split at h
    · rename_i hp
      rw [Bool.and_eq_true] at hp
      cases h; exact Runs.overflow (ho hp.1).1 (ho hp.1).2
    · split at h
      · cases h; exact Runs.respond hi ((Runs.setC1 _).trans (hr.invalid _ (by simp)))
      · split at h
        · cases h; exact Runs.respond hi ((Runs.setC1 _).trans (hr.nan _ _ (by simp)))
        · split at h
          · cases h; exact (Runs.setC1 _).trans (hr.nan _ _ (by simp))
          · exact hgo _ h

/-- The denormal check: Signal(D), or the rest of the instruction. -/
theorem Runs.denormalCheck {ops : List Operand} {go : State → Except Refusal State} (hd : .d ∈ A.conds)
    (hgo : ∀ u t : State, u.sw.top = s.sw.top → go u = .ok t → Runs A u t) (h : denormalCheck ops go s = .ok t) :
    Runs A s t := by
  unfold Machine.denormalCheck at h
  split at h
  · split at h
    · exact (Runs.signal hd).trans (hgo _ _ (by simp) h)
    · cases h; exact Runs.signal hd
  · exact hgo _ _ rfl h

/-! ### Delivery -/

@[simp] theorem State.reportInexact_top (s : State) (x y : Bool) : (s.reportInexact x y).sw.top = s.sw.top := by
  unfold State.reportInexact; split <;> simp

theorem Runs.reportInexact {x y : Bool} (hp : .p ∈ A.conds) : Runs A s (s.reportInexact x y) := by
  unfold State.reportInexact
  split
  · exact (Runs.signal hp).trans (Runs.setC1 _)
  · exact Runs.setC1 _

@[simp] theorem State.overflowMasked_top (s : State) (v : RealValue) : (s.overflowMasked v).sw.top = s.sw.top := by
  simp [State.overflowMasked]

theorem Runs.overflowMasked {v : RealValue} (ho : .o ∈ A.conds) (hp : .p ∈ A.conds) : Runs A s (s.overflowMasked v) :=
  ((Runs.signal ho).trans (Runs.signal hp)).trans (Runs.setC1 _)

/-- Deliver changes flags and C1 only. -/
theorem Runs.deliver {f : Fmt} {p : Nat} {toMem : Bool} {x : Exact} (ho : .o ∈ A.conds) (hu : .u ∈ A.conds)
    (hp : .p ∈ A.conds) : Runs A s (deliver f p toMem x s).1 := by
  unfold Machine.deliver
  dsimp only
  split
  · split
    · exact Runs.overflowMasked ho hp
    · split
      · exact Runs.signal ho
      · exact (Runs.signal ho).trans (Runs.reportInexact hp)
  · split
    · split
      · refine Runs.trans ?_ (Runs.reportInexact hp)
        split
        · exact Runs.signal hu
        · exact Runs.refl
      · split
        · exact Runs.signal hu
        · exact (Runs.signal hu).trans (Runs.reportInexact hp)
    · exact Runs.reportInexact hp

@[simp] theorem deliver_top (f : Fmt) (p : Nat) (toMem : Bool) (x : Exact) (s : State) :
    (deliver f p toMem x s).1.sw.top = s.sw.top := by
  unfold deliver
  dsimp only
  repeat' split
  all_goals simp

theorem Runs.deliverReg {p : Nat} {x : Exact} (ho : .o ∈ A.conds) (hu : .u ∈ A.conds) (hp : .p ∈ A.conds) :
    Runs A s (deliverReg p x s).1 := Runs.deliver ho hu hp

@[simp] theorem deliverReg_top (p : Nat) (x : Exact) (s : State) : (deliverReg p x s).1.sw.top = s.sw.top :=
  deliver_top fmtExt p false x s

/-- DeliverT changes flags and C1 only. -/
theorem Runs.deliverT {a : Approx} (ho : .o ∈ A.conds) (hu : .u ∈ A.conds) (hp : .p ∈ A.conds) :
    Runs A s (deliverT a s).1 := by
  unfold Machine.deliverT
  dsimp only
  split
  · split
    · exact Runs.overflowMasked ho hp
    · exact (Runs.signal ho).trans (Runs.reportInexact hp)
  · split
    · split
      · split
        · exact Runs.setC1 _
        · exact ((Runs.signal hu).trans (Runs.signal hp)).trans (Runs.setC1 _)
      · exact (Runs.signal hu).trans (Runs.reportInexact hp)
    · exact Runs.reportInexact hp

@[simp] theorem deliverT_top (a : Approx) (s : State) : (deliverT a s).1.sw.top = s.sw.top := by
  unfold deliverT
  dsimp only
  repeat' split
  all_goals simp

/-! ### Basic arithmetic -/

theorem Runs.respondResult {ops : List Operand} {x : OpResult} {p : Option Nat} {d : Dest} (hi : .ia ∈ A.conds)
    (hd : .d ∈ A.conds) (hz : (∀ b, x ≠ .zeroDivide b) ∨ .z ∈ A.conds) (ho : .o ∈ A.conds) (hu : .u ∈ A.conds)
    (hp : .p ∈ A.conds) (hdest : AllowsDest A s.sw.top d) (h : respondResult ops x p d s = .ok t) : Runs A s t := by
  unfold Machine.respondResult at h
  split at h
  · cases h; exact Runs.respond hi ((Runs.setC1 _).trans (Runs.writeDest (by simpa using hdest)))
  · rename_i b
    have hz : .z ∈ A.conds := hz.resolve_left fun h => h b rfl
    cases h; exact Runs.respond hz ((Runs.setC1 _).trans (Runs.writeDest (by simpa using hdest)))
  · refine Runs.denormalCheck hd (fun u t hu' h => ?_) h
    cases h; exact (Runs.setC1 _).trans (Runs.writeDest (by simpa [hu'] using hdest))
  · refine Runs.denormalCheck hd (fun u t hu' h => ?_) h
    split at h
    · cases h
    · cases h; exact (Runs.deliverReg ho hu hp).trans (Runs.writeDest (by simpa [hu'] using hdest))

/-- Only a division answers a zero divide. -/
theorem binOp_ne_zeroDivide (op : BinOp) (h : op ≠ .div) (rc : RoundMode) (a b : Ext) (n : Bool) :
    binOp op rc a b ≠ .zeroDivide n := by
  cases op with
  | add => simp only [binOp, addExt]; repeat' split
           all_goals simp
  | sub => simp only [binOp, addExt]; repeat' split
           all_goals simp
  | mul => simp only [binOp, mulExt]; repeat' split
           all_goals simp
  | div => exact absurd rfl h

theorem Runs.arith {op : BinOp} {a b : Operand} {p : Option Nat} {d : Dest} (hs : .isUnder ∈ A.conds)
    (hi : .ia ∈ A.conds) (hd : .d ∈ A.conds) (hz : op = .div → .z ∈ A.conds) (ho : .o ∈ A.conds) (hu : .u ∈ A.conds)
    (hp : .p ∈ A.conds) (hdest : AllowsDest A s.sw.top d) (h : arith op a b p d s = .ok t) : Runs A s t := by
  refine Runs.freeCodes.trans (Runs.preChecks hs (by simp) hi (AllowsDest.responses hdest) (fun t h => ?_) h)
  refine Runs.respondResult hi hd ?_ ho hu hp hdest h
  by_cases hop : op = .div
  · exact .inr (hz hop)
  · exact .inl fun n => binOp_ne_zeroDivide op hop _ _ _ n

theorem Runs.arithDir {op : BinOp} {rev : Bool} {a b : Operand} {p : Option Nat} {d : Dest} (hs : .isUnder ∈ A.conds)
    (hi : .ia ∈ A.conds) (hd : .d ∈ A.conds) (hz : op = .div → .z ∈ A.conds) (ho : .o ∈ A.conds) (hu : .u ∈ A.conds)
    (hp : .p ∈ A.conds) (hdest : AllowsDest A s.sw.top d) (h : arithDir op rev a b p d s = .ok t) : Runs A s t := by
  unfold Machine.arithDir at h
  split at h <;> exact Runs.arith hs hi hd hz ho hu hp hdest h

@[simp] theorem State.remainderCodes_top (s : State) (r : Remainder) : (s.remainderCodes r).sw.top = s.sw.top := by
  unfold State.remainderCodes; split <;> rfl

theorem Runs.remainderCodes {r : Remainder} : Runs A s (s.remainderCodes r) := by
  unfold State.remainderCodes
  split
  · exact (Runs.setCodes _ _ _).trans (Runs.setC1 _)
  · exact (Runs.setCodes _ _ _).trans Runs.freeC1

theorem Runs.writeRemainder {neg : Bool} {r : Sys2Proof.Num} (ho : .o ∈ A.conds) (hu : .u ∈ A.conds) (hp : .p ∈ A.conds)
    (h0 : s.sw.top ∈ A.regs) : Runs A s (s.writeRemainder neg r) := by
  unfold State.writeRemainder
  split
  · exact Runs.setSt (by simpa using h0)
  · exact ((Runs.deliverReg ho hu hp).trans (Runs.setC1 _)).trans (Runs.setSt (by simpa using h0))

/-! ### Data transfer -/

theorem Runs.loadPush {v : Ext} (ho : .isOver ∈ A.conds) (h : AllowsPush A s.sw.top) : Runs A s (s.loadPush v) := by
  unfold State.loadPush
  split
  · exact Runs.overflow ho h
  · exact (Runs.setC1 _).trans (Runs.push h)

theorem Runs.loadReal {x : Operand} (ho : .isOver ∈ A.conds) (hi : .ia ∈ A.conds) (hd : .d ∈ A.conds)
    (h : AllowsPush A s.sw.top) : Runs A s (s.loadReal x) := by
  unfold State.loadReal
  split
  · exact Runs.overflow ho h
  · split
    · exact Runs.respond hi ((Runs.setC1 _).trans (Runs.push (by simpa using h)))
    · split
      · exact Runs.respond hd ((Runs.setC1 _).trans (Runs.push (by simpa using h)))
      · exact (Runs.setC1 _).trans (Runs.push h)

theorem Runs.loadSt {i : StIdx} (hu : .isUnder ∈ A.conds) (ho : .isOver ∈ A.conds) (h : AllowsPush A s.sw.top) :
    Runs A s (s.loadSt i) := by
  unfold State.loadSt
  split
  · exact Runs.respond hu (Runs.loadPush ho (by simpa using h))
  · exact Runs.loadPush ho h

/-- A run may store a destination in memory and do its pop. -/
def AllowsMemDest (A : Allowed) (top : BitVec 3) (d : MemDest) : Prop :=
  A.stored = some (d.addr, d.bytes) ∧ d.addr + d.bytes ≤ memEnd ∧ (d.pop = true → top ∈ A.regs ∧ top + 1#3 ∈ A.tops)

theorem Runs.storeDest {d : MemDest} {v : Nat} (h : AllowsMemDest A s.sw.top d) : Runs A s (s.storeDest d v) := by
  unfold State.storeDest
  split
  · exact (Runs.of (.store s _ _ v h.1 h.2.1)).trans (Runs.pop (h.2.2 ‹_›).1 (h.2.2 ‹_›).2)
  · exact Runs.of (.store s _ _ v h.1 h.2.1)

theorem Runs.storeReal {f : Fmt} {enc : RealValue → Nat} {d : MemDest} (hs : .isUnder ∈ A.conds) (hi : .ia ∈ A.conds)
    (hd : .d ∈ A.conds) (ho : .o ∈ A.conds) (hu : .u ∈ A.conds) (hp : .p ∈ A.conds) (h : AllowsMemDest A s.sw.top d) :
    Runs A s (s.storeReal f enc d) := by
  have put : ∀ (u : State) (n : Nat), u.sw.top = s.sw.top → Runs A u (u.storeDest d n) :=
    fun u n hu' => Runs.storeDest (hu' ▸ h)
  have fin : ∀ u : State, u.sw.top = s.sw.top → Runs A u
      (match (Machine.deliver f f.prec true (exactNum (valOf (s.st 0#3))) u).2 with
        | none => (Machine.deliver f f.prec true (exactNum (valOf (s.st 0#3))) u).1
        | some y => (Machine.deliver f f.prec true (exactNum (valOf (s.st 0#3))) u).1.storeDest d (enc y)) := by
    intro u hu'
    split
    · exact Runs.deliver ho hu hp
    · exact (Runs.deliver ho hu hp).trans (put _ _ (by simp [hu']))
  unfold State.storeReal
  dsimp only
  split
  · exact Runs.respond hs (put _ _ (by simp))
  · split
    · exact Runs.respond hi ((Runs.setC1 _).trans (put _ _ (by simp)))
    · exact Runs.respond hi ((Runs.setC1 _).trans (put _ _ (by simp)))
    · exact Runs.respond hi ((Runs.setC1 _).trans (put _ _ (by simp)))
    · exact Runs.respond hi ((Runs.setC1 _).trans (put _ _ (by simp)))
    · exact (Runs.setC1 _).trans (put _ _ (by simp))
    · exact (Runs.setC1 _).trans (put _ _ (by simp))
    · exact (Runs.setC1 _).trans (put _ _ (by simp))
    · exact Runs.respond hd (fin _ (by simp))
    · exact Runs.respond hd (fin _ (by simp))
    · exact fin _ rfl

theorem Runs.storeRounded {inRange : Int → Bool} {enc : Bool → Nat → Nat} {ind : Nat} {d : MemDest}
    (hs : .isUnder ∈ A.conds) (hi : .ia ∈ A.conds) (hp : .p ∈ A.conds) (h : AllowsMemDest A s.sw.top d) :
    Runs A s (s.storeRounded inRange enc ind d) := by
  have put : ∀ (u : State) (n : Nat), u.sw.top = s.sw.top → Runs A u (u.storeDest d n) :=
    fun u n hu' => Runs.storeDest (hu' ▸ h)
  have bad : Runs A s (s.respond .ia fun t => (t.setC1 false).storeDest d ind) :=
    Runs.respond hi ((Runs.setC1 _).trans (put _ _ (by simp)))
  have fin : ∀ x y n, Runs A s ((s.reportInexact x y).storeDest d n) :=
    fun x y n => (Runs.reportInexact hp).trans (put _ _ (by simp))
  have both : ∀ (c : Bool) (x y : Bool) (n : Nat), Runs A s (if c then (s.reportInexact x y).storeDest d n
      else s.respond .ia fun t => (t.setC1 false).storeDest d ind) := by
    intro c x y n
    cases c
    · exact bad
    · exact fin x y n
  unfold State.storeRounded
  dsimp only
  split
  · exact Runs.respond hs (put _ _ (by simp))
  · split
    iterate 6 exact bad
    · exact (Runs.setC1 _).trans (put _ _ (by simp))
    all_goals exact both _ _ _ _

theorem Runs.copySt {i : StIdx} {pop : Bool} (hs : .isUnder ∈ A.conds)
    (h : AllowsDest A s.sw.top { i := i, pop := pop }) : Runs A s (s.copySt i pop) := by
  have fin : ∀ (u : State) (v : Ext), u.sw.top = s.sw.top →
      Runs A u (if pop = true then (u.setSt i v).pop else u.setSt i v) := by
    intro u v hu
    have := Runs.writeDest (v := v) (hu ▸ h)
    exact this
  unfold State.copySt
  dsimp only
  split
  · exact Runs.respond hs (fin _ _ (by simp))
  · exact (Runs.setC1 _).trans (fin _ _ (by simp))

@[simp] theorem State.fillEmpty_top (s : State) (i : StIdx) : (s.fillEmpty i).sw.top = s.sw.top := by
  unfold State.fillEmpty; split <;> rfl

theorem Runs.fillEmpty {i : StIdx} (h : s.sw.top + i ∈ A.regs) : Runs A s (s.fillEmpty i) := by
  unfold State.fillEmpty
  split
  · exact Runs.setSt h
  · exact Runs.refl

theorem Runs.exchange {i : StIdx} (h0 : s.sw.top ∈ A.regs) (h : s.sw.top + i ∈ A.regs) : Runs A s (s.exchange i) :=
  (Runs.setSt (by simpa using h0)).trans (Runs.setSt h)

/-! ### Comparison -/

/-- A compare signals at most one condition. -/
theorem Runs.compareOps {a b : Operand} {kind : CompareKind} {checkD : Bool} (hs : .isUnder ∈ A.conds) (hi : .ia ∈ A.conds)
    (hd : .d ∈ A.conds) : Runs A s (compareOps a b kind checkD s).state := by
  unfold Machine.compareOps
  split
  · exact Runs.signal hs
  · split
    · exact Runs.signal hi
    · split
      · exact Runs.refl
      · split
        · exact Runs.signal hd
        · exact Runs.refl

@[simp] theorem compareOps_top (a b : Operand) (kind : CompareKind) (checkD : Bool) (s : State) :
    (compareOps a b kind checkD s).state.sw.top = s.sw.top := by
  unfold compareOps signalUnordered
  repeat' split
  all_goals simp

@[simp] theorem State.setCC_top (s : State) (r : Relation) : (s.setCC r).sw.top = s.sw.top := by cases r <;> rfl

theorem Runs.setCC {r : Relation} : Runs A s (s.setCC r) := by
  cases r <;> exact (Runs.setCodes _ _ _).trans (Runs.setC1 _)

@[simp] theorem State.setRelationFlags_top (s : State) (r : Relation) : (s.setRelationFlags r).sw.top = s.sw.top := by
  cases r <;> rfl

theorem Runs.setRelationFlags {r : Relation} (he : A.eflags = true) : Runs A s (s.setRelationFlags r) := by
  cases r <;> exact (Runs.freeCodes.trans (Runs.setC1 _)).trans (Runs.of (.eflags _ _ _ _ he))

/-- A run may pop `n` times, `n` at most 2. -/
def AllowsPops (A : Allowed) (top : BitVec 3) : Nat → Prop
  | 0 => True
  | 1 => top ∈ A.regs ∧ top + 1#3 ∈ A.tops
  | 2 => top ∈ A.regs ∧ top + 1#3 ∈ A.regs ∧ top + 2#3 ∈ A.tops
  | _ => False

/-- Two pops empty two registers and move TOP once. -/
theorem State.popN_two (s : State) :
    s.popN 2 = ((s.withTag s.sw.top .empty).withTag (s.sw.top + 1#3) .empty).withTop (s.sw.top + 2#3) := by
  have h : ∀ x : BitVec 3, x + 1#3 + 1#3 = x + 2#3 := by decide
  simp only [State.popN, State.pop, State.withTop, State.withTag, State.withSw, h]

theorem Runs.popN {n : Nat} (h : AllowsPops A s.sw.top n) : Runs A s (s.popN n) := by
  match n, h with
  | 0, _ => exact Runs.refl
  | 1, h => exact Runs.pop h.1 h.2
  | 2, h =>
    rw [State.popN_two]
    exact ((Runs.of (.empty s _ h.1)).trans (Runs.of (.empty _ _ h.2.1))).trans (Runs.of (.top _ _ h.2.2))

theorem Runs.compareCC {b : Operand} {kind : CompareKind} {pops : Nat} (hs : .isUnder ∈ A.conds) (hi : .ia ∈ A.conds)
    (hd : .d ∈ A.conds) (h : AllowsPops A s.sw.top pops) : Runs A s (s.compareCC b kind pops) := by
  unfold State.compareCC
  dsimp only
  split
  · exact Runs.compareOps hs hi hd
  · exact ((Runs.compareOps hs hi hd).trans Runs.setCC).trans (Runs.popN (by simpa using h))

theorem Runs.compareEflags {b : Operand} {kind : CompareKind} {pops : Nat} (hs : .isUnder ∈ A.conds)
    (hi : .ia ∈ A.conds) (hd : .d ∈ A.conds) (he : A.eflags = true) (h : AllowsPops A s.sw.top pops) :
    Runs A s (s.compareEflags b kind pops) := by
  unfold State.compareEflags
  dsimp only
  split
  · exact Runs.compareOps hs hi hd
  · exact ((Runs.compareOps hs hi hd).trans (Runs.setRelationFlags he)).trans (Runs.popN (by simpa using h))

theorem Runs.examine : Runs A s s.examine := by
  unfold State.examine
  dsimp only
  split
  · exact (Runs.setC1 _).trans (Runs.setCodes _ _ _)
  · split <;> exact (Runs.setC1 _).trans (Runs.setCodes _ _ _)

/-! ### Transcendental -/

theorem Runs.deliverSt0 {x : Approx} (ho : .o ∈ A.conds) (hu : .u ∈ A.conds) (hp : .p ∈ A.conds)
    (h0 : s.sw.top ∈ A.regs) : Runs A s (s.deliverSt0 x) :=
  (Runs.deliverT ho hu hp).trans (Runs.setSt (by simpa using h0))

@[simp] theorem State.deliverSt0_top (s : State) (x : Approx) : (s.deliverSt0 x).sw.top = s.sw.top := by
  simp [State.deliverSt0]

theorem Runs.sinCos {a : Ext} (ho : .o ∈ A.conds) (hu : .u ∈ A.conds) (hp : .p ∈ A.conds) (h0 : s.sw.top ∈ A.regs)
    (h : AllowsPush A s.sw.top) : Runs A s (s.sinCos a) :=
  (((Runs.deliverT ho hu hp).trans (Runs.deliverT ho hu hp)).trans (Runs.setC1 _)).trans
    (Runs.writePush (by simpa using h0) (by simpa using h))

theorem Runs.exactDest {d : Dest} {v : Ext} (h : AllowsDest A s.sw.top d) : Runs A s (s.exactDest d v) :=
  (Runs.setC1 _).trans (Runs.writeDest h)

theorem Runs.invalidDest {d : Dest} (hi : .ia ∈ A.conds) (h : AllowsDest A s.sw.top d) : Runs A s (s.invalidDest d) :=
  Runs.respond hi (Runs.exactDest (by simpa using h))

theorem Runs.deliverDest {d : Dest} {x : Approx} (ho : .o ∈ A.conds) (hu : .u ∈ A.conds) (hp : .p ∈ A.conds)
    (h : AllowsDest A s.sw.top d) : Runs A s (s.deliverDest d x) :=
  (Runs.deliverT ho hu hp).trans (Runs.writeDest (by simpa using h))

theorem Runs.piDest {d : Dest} {neg : Bool} {num e : Nat} (ho : .o ∈ A.conds) (hu : .u ∈ A.conds) (hp : .p ∈ A.conds)
    (h : AllowsDest A s.sw.top d) : Runs A s (s.piDest d neg num e) :=
  (Runs.deliverReg ho hu hp).trans (Runs.writeDest (by simpa using h))

theorem ite_elim {c : Prop} [Decidable c] {a b : Option State} {u : State} {P : Prop} (ha : a = some u → P)
    (hb : b = some u → P) (h : (if c then a else b) = some u) : P := by
  split at h
  · exact ha h
  · exact hb h

theorem Runs.atanSpecial {y x : Ext} {d : Dest} {u : State} (ho : .o ∈ A.conds) (hu : .u ∈ A.conds) (hp : .p ∈ A.conds)
    (h : AllowsDest A s.sw.top d) (he : s.atanSpecial y x d = some u) : Runs A s u := by
  have pi : ∀ {neg : Bool} {num e : Nat}, some (s.piDest d neg num e) = some u → Runs A s u := fun h' =>
    Option.some.inj h' ▸ Runs.piDest ho hu hp h
  have ex : ∀ {v : Ext}, some (s.exactDest d v) = some u → Runs A s u := fun h' =>
    Option.some.inj h' ▸ Runs.exactDest h
  have no : none = some u → Runs A s u := by simp
  unfold State.atanSpecial at he
  dsimp only at he
  exact ite_elim (ite_elim pi ex) (ite_elim (ite_elim (ite_elim pi pi) pi)
    (ite_elim pi (ite_elim (ite_elim pi ex) no))) he

theorem Runs.deliverScaled {x : Sys2Proof.Num} (ho : .o ∈ A.conds) (hu : .u ∈ A.conds) (hp : .p ∈ A.conds)
    (h0 : s.sw.top ∈ A.regs) : Runs A s (s.deliverScaled x) := by
  have hd : ∀ u : State, u.sw.top = s.sw.top → AllowsDest A u.sw.top st0 :=
    fun u hu => ⟨by rw [hu]; simpa [st0] using h0, by simp [st0]⟩
  unfold State.deliverScaled
  dsimp only
  split
  · exact (Runs.signal ho).trans (Runs.exactDest (hd _ (by simp)))
  · split
    · exact (Runs.signal hu).trans (Runs.exactDest (hd _ (by simp)))
    · exact (Runs.deliverReg ho hu hp).trans (Runs.setSt (by simpa using h0))

/-- The trigonometric instructions: their parts stay within what is allowed. -/
theorem Runs.trig {f : Trig} (hs : .isUnder ∈ A.conds) (ho : f.pushes = true → .isOver ∈ A.conds ∧ AllowsPush A s.sw.top)
    (hi : .ia ∈ A.conds) (hd : .d ∈ A.conds) (hr : AllowsResponses A s.sw.top f.responses)
    (hz : ∀ (a : Ext) (u : State), u.sw.top = s.sw.top → Runs A u (f.onZero a u))
    (hn : ∀ (a : Ext) (u : State), u.sw.top = s.sw.top → Runs A u (f.onNumber a u)) (h : trig f s = .ok t) :
    Runs A s t := by
  unfold Machine.trig at h
  dsimp only at h
  refine Runs.freeCodes.trans (Runs.preChecks hs ho hi hr (fun t h => ?_) h)
  split at h
  · cases h
    exact Runs.respond hi (((Runs.setC2 _).trans (Runs.setC1 _)).trans (hr.invalid _ (by simp)))
  · split at h
    · cases h; exact (Runs.setC2 _).trans Runs.freeC1
    · refine (Runs.setC2 _).trans (Runs.denormalCheck hd (fun u t hu h => ?_) h)
      have hu' : u.sw.top = s.sw.top := by simpa using hu
      split at h
      · cases h; exact (Runs.setC1 _).trans (hz _ _ (by simpa using hu'))
      · cases h; exact hn _ _ hu'

end Sys2Proof.Machine
end

