-- ==== Sys2Proof/Laws/Exec.lean ====
section
/-! SUPPORT. What an instruction answers: the frames of Operands.lean inverted, for every non-control instruction the
run of
updates it does, within what Safety.lean says it may touch, and for every control instruction its effect. -/

namespace Sys2Proof

/-- The conditions that the operation which delivers a result, or the compare, can signal in general, where
`Instr.signals` does not list them for the instruction: its numbers, or the processor, never meet them. -/
def Instr.mayDeliver : Instr → List Machine.Cond
  | .fsqrt _ => [.o, .u]
  | .fprem _ => [.o, .p]
  | .fprem1 _ => [.o, .p]
  | .fsin _ => [.o]
  | .fcos _ => [.o]
  | .fptan _ => [.o]
  | .fsincos _ => [.o]
  | .fpatan _ => [.o]
  | .f2xm1 _ => [.o]
  | .fyl2xp1 _ => [.o]
  | .fcomi _ _ => [.d]
  | .fcomip _ _ => [.d]
  | .fucomi _ _ => [.d]
  | .fucomip _ _ => [.d]
  | _ => []

end Sys2Proof

namespace Sys2Proof.Machine

variable {s t : State} {i : Instr}

/-! ### The frames -/

theorem waiting_next {body : State → Result} (h : s.waiting body = .next t) :
    (s.pending = .mf ∧ t = s.raiseMF) ∨ (s.pending = .frozen ∧ t = s.freeze) ∨ (s.pending = .clear ∧ body s = .next t)
      := by
  unfold State.waiting at h
  split at h
  · exact .inr (.inr ⟨‹_›, h⟩)
  · cases h; exact .inl ⟨‹_›, rfl⟩
  · cases h; exact .inr (.inl ⟨‹_›, rfl⟩)

theorem control_next {body : State → State} (h : s.control i body = .next t) : t = (body s).advance i.length := by
  cases h; rfl

theorem controlMem_next {m : MemForm} {n : Nat} {body : Nat → State → State} (h : s.controlMem i m n body = .next t) :
    s.inRange m n = true ∧ t = (body (s.addr m) s).advance i.length := by
  unfold State.controlMem at h
  split at h
  · cases h; exact ⟨‹_›, rfl⟩
  · cases h

/-- The state in which the body of a non-control instruction begins. -/
def begun (s : State) (i : Instr) : State := s.updatePointers i (i.memForm.map (s.operandPtr i.prefixes))

@[simp] theorem begun_sw : (begun s i).sw = s.sw := rfl

/-- What an instruction may do in a state, in the terms of Safety.lean. -/
def allowed (s : State) (i : Instr) : Allowed where
  conds := i.mayDeliver ++ i.signals s.params
  regs := i.touches.map fun j => s.sw.top + j
  tops := i.topMoves.map fun d => s.sw.top + d
  stored := i.stored s
  eflags := i.isFcomi

/-- How a non-control instruction ends: handed over, or run. -/
def Ended (s : State) (i : Instr) (t : State) : Prop :=
  (s.pending = .mf ∧ t = s.raiseMF) ∨ (s.pending = .frozen ∧ t = s.freeze) ∨
    (s.pending = .clear ∧ ∃ u, Runs (allowed s i) (begun s i) u ∧ t = u.advance i.length)

theorem nonControl_ended {body : State → Except Refusal State} (hm : i.memForm = none)
    (hb : ∀ u, body (begun s i) = .ok u → Runs (allowed s i) (begun s i) u) (h : s.nonControl i body = .next t) :
    Ended s i t := by
  refine (waiting_next h).imp id (Or.imp id fun ⟨hc, h⟩ => ⟨hc, ?_⟩)
  have e : s.updatePointers i none = begun s i := by rw [begun, hm]; rfl
  rw [e] at h
  split at h
  · cases h; exact ⟨_, hb _ ‹_›, rfl⟩
  · cases h

theorem nonControlMem_ended {m : MemForm} {n : Nat} {body : Nat → State → Except Refusal State} (hm : i.memForm = some
    m)
    (hb : ∀ u, s.inRange m n = true → body (s.addr m) (begun s i) = .ok u → Runs (allowed s i) (begun s i) u)
    (h : s.nonControlMem i m n body = .next t) : Ended s i t := by
  refine (waiting_next h).imp id (Or.imp id fun ⟨hc, h⟩ => ⟨hc, ?_⟩)
  have e : s.updatePointers i (some (s.operandPtr i.prefixes m)) = begun s i := by rw [begun, hm]; rfl
  rw [e] at h
  split at h
  · split at h
    · cases h; exact ⟨_, hb _ ‹_› ‹_›, rfl⟩
    · cases h
  · cases h

/-! ### What an instruction may do, from its tables -/

/-- The tables list all of these conditions. -/
def lists (P : Params) (i : Instr) (cs : List Cond) : Bool :=
  cs.all fun c => (i.mayDeliver ++ i.signals P).contains c

theorem lists_mem {cs : List Cond} {c : Cond} (h : lists s.params i cs = true) (hc : c ∈ cs) : c ∈ (allowed s i).conds :=
  List.elem_iff.mp (List.all_eq_true.mp h c hc)

theorem touches_mem {j : StIdx} (h : j ∈ i.touches) : s.sw.top + j ∈ (allowed s i).regs := List.mem_map_of_mem h

theorem touches_top (h : 0#3 ∈ i.touches) : s.sw.top ∈ (allowed s i).regs := by
  have := touches_mem (s := s) h
  rwa [BitVec.add_zero] at this

theorem moves_mem {d : BitVec 3} (h : d ∈ i.topMoves) : s.sw.top + d ∈ (allowed s i).tops := List.mem_map_of_mem h

theorem allowsDest {d : Dest} (h : d.i ∈ i.touches) (hp : d.pop = true → 0#3 ∈ i.touches ∧ 1#3 ∈ i.topMoves) :
    AllowsDest (allowed s i) s.sw.top d :=
  ⟨touches_mem h, fun e => ⟨touches_top (hp e).1, moves_mem (hp e).2⟩⟩

theorem sub_one_eq : ∀ x : BitVec 3, x - 1#3 = x + 7#3 := by decide

theorem allowsPush (h : 7#3 ∈ i.touches) (h' : 7#3 ∈ i.topMoves) : AllowsPush (allowed s i) s.sw.top := by
  unfold AllowsPush
  rw [sub_one_eq]
  exact ⟨touches_mem h, moves_mem h'⟩

theorem inRange_le {m : MemForm} {n : Nat} (h : s.inRange m n = true) : s.addr m + n ≤ memEnd := of_decide_eq_true h

theorem allowsMemDest {m : MemForm} {n : Nat} {pop : Bool} (h : i.stored s = some (s.addr m, n))
    (hr : s.inRange m n = true) (hp : pop = true → 0#3 ∈ i.touches ∧ 1#3 ∈ i.topMoves) :
    AllowsMemDest (allowed s i) s.sw.top { addr := s.addr m, bytes := n, pop := pop } :=
  ⟨h, inRange_le hr, fun e => ⟨touches_top (hp e).1, moves_mem (hp e).2⟩⟩

/-! ### The groups of instructions -/

/-- The conditions of the basic arithmetic instructions but division. -/
abbrev arithConds : List Cond := [.isUnder, .ia, .d, .o, .u, .p]

theorem arithDir_runs {op : BinOp} {rev : Bool} {a b : Operand} {p : Option Nat} {d : Dest} {u : State}
    (hc : lists s.params i arithConds = true) (hz : op = .div → lists s.params i [.z] = true)
    (hd : AllowsDest (allowed s i) s.sw.top d) (h : arithDir op rev a b p d (begun s i) = .ok u) :
    Runs (allowed s i) (begun s i) u :=
  Runs.arithDir (lists_mem hc (by simp)) (lists_mem hc (by simp)) (lists_mem hc (by simp))
    (fun e => lists_mem (hz e) (by simp)) (lists_mem hc (by simp)) (lists_mem hc (by simp)) (lists_mem hc (by simp))
      hd h

theorem arithSingle_ended {op : BinOp} {rev : Bool} {m : MemForm} (hm : i.memForm = some m)
    (hc : lists s.params i arithConds = true) (hz : op = .div → lists s.params i [.z] = true) (h0 : 0#3 ∈ i.touches)
    (h : arithSingle i op rev m s = .next t) : Ended s i t :=
  nonControlMem_ended hm (fun _ _ h => arithDir_runs hc hz (allowsDest h0 (by simp [st0])) h) h

theorem arithDouble_ended {op : BinOp} {rev : Bool} {m : MemForm} (hm : i.memForm = some m)
    (hc : lists s.params i arithConds = true) (hz : op = .div → lists s.params i [.z] = true) (h0 : 0#3 ∈ i.touches)
    (h : arithDouble i op rev m s = .next t) : Ended s i t :=
  nonControlMem_ended hm (fun _ _ h => arithDir_runs hc hz (allowsDest h0 (by simp [st0])) h) h

theorem arithInt_ended {op : BinOp} {rev : Bool} {n : Nat} {m : MemForm} (hm : i.memForm = some m)
    (hc : lists s.params i arithConds = true) (hz : op = .div → lists s.params i [.z] = true) (h0 : 0#3 ∈ i.touches)
    (h : arithInt i op rev n m s = .next t) : Ended s i t :=
  nonControlMem_ended hm (fun _ _ h => arithDir_runs hc hz (allowsDest h0 (by simp [st0])) h) h

theorem arithSt0_ended {op : BinOp} {rev : Bool} {j : StIdx} (hm : i.memForm = none)
    (hc : lists s.params i arithConds = true) (hz : op = .div → lists s.params i [.z] = true) (h0 : 0#3 ∈ i.touches)
    (h : arithSt0 i op rev j s = .next t) : Ended s i t :=
  nonControl_ended hm (fun _ h => arithDir_runs hc hz (allowsDest h0 (by simp [st0])) h) h

theorem arithSti_ended {op : BinOp} {rev : Bool} {j : StIdx} {pop : Bool} (hm : i.memForm = none)
    (hc : lists s.params i arithConds = true) (hz : op = .div → lists s.params i [.z] = true) (hj : j ∈ i.touches)
    (hp : pop = true → 0#3 ∈ i.touches ∧ 1#3 ∈ i.topMoves) (h : arithSti i op rev j pop s = .next t) : Ended s i t :=
  nonControl_ended hm (fun _ h => arithDir_runs hc hz (allowsDest hj hp) h) h

theorem loadReal_runs {x : State → Operand} {u : State} (hc : lists s.params i [.isOver, .ia, .d] = true)
    (h7 : 7#3 ∈ i.touches ∧ 7#3 ∈ i.topMoves)
    (h : (Except.ok ((begun s i).freeCodes.loadReal (x (begun s i).freeCodes)) : Except Refusal State) = .ok u) :
    Runs (allowed s i) (begun s i) u := by
  cases h
  exact Runs.freeCodes.trans (Runs.loadReal (lists_mem hc (by simp)) (lists_mem hc (by simp)) (lists_mem hc (by simp))
    (allowsPush h7.1 h7.2))

theorem loadPush_runs {v : Ext} {u : State} (hc : lists s.params i [.isOver] = true) (h7 : 7#3 ∈ i.touches ∧ 7#3 ∈ i.topMoves)
    (h : (Except.ok ((begun s i).freeCodes.loadPush v) : Except Refusal State) = .ok u) :
    Runs (allowed s i) (begun s i) u := by
  cases h
  exact Runs.freeCodes.trans (Runs.loadPush (lists_mem hc (by simp)) (allowsPush h7.1 h7.2))

/-- The conditions of a store of a real. -/
abbrev storeConds : List Cond := [.isUnder, .ia, .d, .o, .u, .p]

theorem storeSingle_ended {m : MemForm} {pop : Bool} (hm : i.memForm = some m) (hc : lists s.params i storeConds = true)
    (hs : i.stored s = some (s.addr m, 4)) (hp : pop = true → 0#3 ∈ i.touches ∧ 1#3 ∈ i.topMoves)
    (h : storeSingle i m pop s = .next t) : Ended s i t :=
  nonControlMem_ended hm (fun _ hr h => by
    cases h
    exact Runs.freeCodes.trans (Runs.storeReal (lists_mem hc (by simp)) (lists_mem hc (by simp)) (lists_mem hc (by
      simp))
      (lists_mem hc (by simp)) (lists_mem hc (by simp)) (lists_mem hc (by simp)) (allowsMemDest hs hr hp))) h

theorem storeDouble_ended {m : MemForm} {pop : Bool} (hm : i.memForm = some m) (hc : lists s.params i storeConds = true)
    (hs : i.stored s = some (s.addr m, 8)) (hp : pop = true → 0#3 ∈ i.touches ∧ 1#3 ∈ i.topMoves)
    (h : storeDouble i m pop s = .next t) : Ended s i t :=
  nonControlMem_ended hm (fun _ hr h => by
    cases h
    exact Runs.freeCodes.trans (Runs.storeReal (lists_mem hc (by simp)) (lists_mem hc (by simp)) (lists_mem hc (by
      simp))
      (lists_mem hc (by simp)) (lists_mem hc (by simp)) (lists_mem hc (by simp)) (allowsMemDest hs hr hp))) h

theorem storeInt_ended {m : MemForm} {n : Nat} {pop : Bool} (hm : i.memForm = some m)
    (hc : lists s.params i [.isUnder, .ia, .p] = true) (hs : i.stored s = some (s.addr m, n))
    (hp : pop = true → 0#3 ∈ i.touches ∧ 1#3 ∈ i.topMoves) (h : storeInt i m n pop s = .next t) : Ended s i t :=
  nonControlMem_ended hm (fun _ hr h => by
    cases h
    exact Runs.freeCodes.trans (Runs.storeRounded (lists_mem hc (by simp)) (lists_mem hc (by simp))
      (lists_mem hc (by simp)) (allowsMemDest hs hr hp))) h

theorem fbstp_ended {p : List Prefix} {m : MemForm} (h : execFbstp p m s = .next t) : Ended s (.fbstp p m) t :=
  nonControlMem_ended rfl (fun _ hr h => by
    cases h
    exact Runs.freeCodes.trans (Runs.storeRounded (lists_mem (cs := [.isUnder]) rfl (by simp))
      (lists_mem (cs := [.ia]) rfl (by simp)) (lists_mem (cs := [.p]) rfl (by simp))
      (allowsMemDest rfl hr (by simp [Instr.touches, Instr.topMoves])))) h

theorem fstpM80_ended {p : List Prefix} {m : MemForm} (h : execFstpM80 p m s = .next t) : Ended s (.fstpM80 p m) t :=
  nonControlMem_ended rfl (fun _ hr h => by
    have hd := allowsMemDest (s := s) (i := .fstpM80 p m) (m := m) (n := 10) (pop := true) rfl hr
      (by simp [Instr.touches, Instr.topMoves])
    cases h
    refine Runs.freeCodes.trans ?_
    split
    · exact Runs.respond (lists_mem (cs := [.isUnder]) rfl (by simp)) (Runs.storeDest (by simpa using hd))
    · exact (Runs.setC1 _).trans (Runs.storeDest (by simpa using hd))) h

theorem cmov_ended {c : Eflags → Bool} {j : StIdx} (hm : i.memForm = none) (hc : lists s.params i [.isUnder] = true)
    (h0 : 0#3 ∈ i.touches) (h : cmov i c j s = .next t) : Ended s i t := by
  unfold cmov at h
  split at h
  · refine nonControl_ended hm (fun _ h => ?_) h
    cases h
    have h0 : s.sw.top + 0#3 ∈ (allowed s i).regs := touches_mem h0
    refine Runs.freeCodes.trans ?_
    split
    · refine Runs.respond (lists_mem hc (by simp)) ?_
      split
      · exact Runs.setSt (by simpa using h0)
      · exact Runs.refl
    · split
      · exact (Runs.setC1 _).trans (Runs.setSt (by simpa using h0))
      · exact Runs.setC1 _
  · cases h

/-- The conditions of a compare. -/
abbrev compareConds : List Cond := [.isUnder, .ia, .d]

theorem compareCC_runs {b : Operand} {kind : CompareKind} {pops : Nat} {u : State} (hc : lists s.params i compareConds = true)
    (hp : AllowsPops (allowed s i) s.sw.top pops)
    (h : (Except.ok ((begun s i).compareCC b kind pops) : Except Refusal State) = .ok u) :
    Runs (allowed s i) (begun s i) u := by
  cases h
  exact Runs.compareCC (lists_mem hc (by simp)) (lists_mem hc (by simp)) (lists_mem hc (by simp)) hp

theorem compareSingle_ended {m : MemForm} {pops : Nat} (hm : i.memForm = some m) (hc : lists s.params i compareConds = true)
    (hp : AllowsPops (allowed s i) s.sw.top pops) (h : compareSingle i m pops s = .next t) : Ended s i t :=
  nonControlMem_ended hm (fun _ _ h => compareCC_runs hc hp h) h

theorem compareDouble_ended {m : MemForm} {pops : Nat} (hm : i.memForm = some m) (hc : lists s.params i compareConds = true)
    (hp : AllowsPops (allowed s i) s.sw.top pops) (h : compareDouble i m pops s = .next t) : Ended s i t :=
  nonControlMem_ended hm (fun _ _ h => compareCC_runs hc hp h) h

theorem compareInt_ended {m : MemForm} {n pops : Nat} (hm : i.memForm = some m) (hc : lists s.params i compareConds = true)
    (hp : AllowsPops (allowed s i) s.sw.top pops) (h : compareInt i m n pops s = .next t) : Ended s i t :=
  nonControlMem_ended hm (fun _ _ h => compareCC_runs hc hp h) h

theorem compareReg_ended {j : StIdx} {kind : CompareKind} {pops : Nat} (hm : i.memForm = none)
    (hc : lists s.params i compareConds = true) (hp : AllowsPops (allowed s i) s.sw.top pops)
    (h : compareReg i j kind pops s = .next t) : Ended s i t :=
  nonControl_ended hm (fun _ h => compareCC_runs hc hp h) h

theorem compareRegEflags_ended {j : StIdx} {kind : CompareKind} {pops : Nat} (hm : i.memForm = none)
    (hc : lists s.params i compareConds = true) (he : i.isFcomi = true) (hp : AllowsPops (allowed s i) s.sw.top pops)
    (h : compareRegEflags i j kind pops s = .next t) : Ended s i t := by
  unfold compareRegEflags at h
  split at h
  · refine nonControl_ended hm (fun _ h => ?_) h
    cases h
    exact Runs.compareEflags (lists_mem hc (by simp)) (lists_mem hc (by simp)) (lists_mem hc (by simp)) he hp
  · cases h

theorem signOp_ended {f : Ext → Ext} (hm : i.memForm = none) (hc : lists s.params i [.isUnder] = true) (h0 : 0#3 ∈ i.touches)
    (h : signOp i f s = .next t) : Ended s i t :=
  nonControl_ended hm (fun _ h => by
    dsimp only at h
    cases h
    have h0 : s.sw.top + 0#3 ∈ (allowed s i).regs := touches_mem h0
    refine Runs.freeCodes.trans ?_
    split
    · exact Runs.respond (lists_mem hc (by simp)) (Runs.setSt (by simpa using h0))
    · exact (Runs.setC1 _).trans (Runs.setSt (by simpa using h0))) h

theorem copySt_ended {j : StIdx} {pop : Bool} (hm : i.memForm = none) (hc : lists s.params i [.isUnder] = true)
    (hj : j ∈ i.touches) (hp : pop = true → 0#3 ∈ i.touches ∧ 1#3 ∈ i.topMoves)
    (h : (s.nonControl i fun s => .ok (s.freeCodes.copySt j pop)) = .next t) : Ended s i t :=
  nonControl_ended hm (fun _ h => by
    cases h
    exact Runs.freeCodes.trans (Runs.copySt (lists_mem hc (by simp)) (allowsDest hj hp))) h

theorem fxch_ended {p : List Prefix} {j : StIdx} (h : execFxch p j s = .next t) : Ended s (.fxch p j) t :=
  nonControl_ended rfl (fun _ h => by
    have h0 : s.sw.top ∈ (allowed s (.fxch p j)).regs := touches_top (by simp [Instr.touches])
    have hj : s.sw.top + j ∈ (allowed s (.fxch p j)).regs := touches_mem (by simp [Instr.touches])
    dsimp only at h
    cases h
    refine Runs.freeCodes.trans ?_
    split
    · refine Runs.respond (lists_mem (cs := [.isUnder]) rfl (by simp)) ?_
      exact ((Runs.fillEmpty (by simpa using h0)).trans (Runs.fillEmpty (by simpa using hj))).trans
        (Runs.exchange (by simpa using h0) (by simpa using hj))
    · exact (Runs.setC1 _).trans (Runs.exchange (by simpa using h0) (by simpa using hj))) h

theorem fsqrt_ended {p : List Prefix} (h : execFsqrt p s = .next t) : Ended s (.fsqrt p) t :=
  nonControl_ended rfl (fun _ h => by
    have hd : AllowsDest (allowed s (.fsqrt p)) s.sw.top st0 := allowsDest (by simp [Instr.touches, st0]) (by simp
      [st0])
    have hc : lists s.params (.fsqrt p) arithConds = true := rfl
    refine Runs.freeCodes.trans (Runs.preChecks (lists_mem hc (by simp)) (by simp) (lists_mem hc (by simp))
      hd.responses (fun t h => ?_) h)
    refine Runs.respondResult (lists_mem hc (by simp)) (lists_mem hc (by simp)) (.inl fun b => ?_)
      (lists_mem hc (by simp)) (lists_mem hc (by simp)) (lists_mem hc (by simp)) hd h
    unfold sqrtExt
    repeat' split
    all_goals simp) h

theorem prem_ended {kind : RemKind} (hm : i.memForm = none) (hc : lists s.params i arithConds = true) (h0 : 0#3 ∈ i.touches)
    (h : s.nonControl i (prem kind) = .next t) : Ended s i t :=
  nonControl_ended hm (fun _ h => by
    have hd : AllowsDest (allowed s i) s.sw.top st0 := allowsDest h0 (by simp [st0])
    have ht : s.sw.top + 0#3 ∈ (allowed s i).regs := touches_mem h0
    unfold prem at h
    dsimp only at h
    refine Runs.freeCodes.trans (Runs.preChecks (lists_mem hc (by simp)) (by simp) (lists_mem hc (by simp))
      hd.responses (fun t h => ?_) h)
    split at h
    · cases h
      exact Runs.respond (lists_mem hc (by simp)) (((Runs.setC2 _).trans (Runs.setC1 _)).trans
        (Runs.setSt (by simpa using ht)))
    · refine Runs.denormalCheck (lists_mem hc (by simp)) (fun u v hu h => ?_) h
      split at h
      · cases h; exact (Runs.setCodes _ _ _).trans (Runs.setC1 _)
      · cases h
        exact Runs.remainderCodes.trans (Runs.writeRemainder (lists_mem hc (by simp)) (lists_mem hc (by simp))
          (lists_mem hc (by simp)) (by simpa [hu] using ht))) h

theorem frndint_ended {p : List Prefix} (h : execFrndint p s = .next t) : Ended s (.frndint p) t :=
  nonControl_ended rfl (fun _ h => by
    have hd : AllowsDest (allowed s (.frndint p)) s.sw.top st0 := allowsDest (by simp [Instr.touches, st0]) (by simp
      [st0])
    have ht : s.sw.top + 0#3 ∈ (allowed s (.frndint p)).regs := touches_mem (by simp [Instr.touches])
    have hc : lists s.params (.frndint p) [.isUnder, .ia, .d, .p] = true := rfl
    dsimp only at h
    refine Runs.freeCodes.trans (Runs.preChecks (lists_mem hc (by simp)) (by simp) (lists_mem hc (by simp))
      hd.responses (fun t h => ?_) h)
    refine Runs.denormalCheck (lists_mem hc (by simp)) (fun u v hu h => ?_) h
    split at h
    · cases h; exact Runs.setC1 _
    · cases h
      exact (Runs.reportInexact (lists_mem hc (by simp))).trans (Runs.setSt (by simpa [hu] using ht))) h

theorem fxtract_ended {p : List Prefix} (h : execFxtract p s = .next t) : Ended s (.fxtract p) t :=
  nonControl_ended rfl (fun _ h => by
    have h0 : s.sw.top ∈ (allowed s (.fxtract p)).regs := touches_top (by simp [Instr.touches])
    have h7 : AllowsPush (allowed s (.fxtract p)) s.sw.top :=
      allowsPush (by simp [Instr.touches]) (by simp [Instr.topMoves])
    have hc : lists s.params (.fxtract p) [.isUnder, .isOver, .ia, .d, .z] = true := rfl
    dsimp only at h
    refine Runs.freeCodes.trans (Runs.preChecks (lists_mem hc (by simp)) (fun _ => ⟨lists_mem hc (by simp), h7⟩)
      (lists_mem hc (by simp)) (h7.responses h0) (fun t h => ?_) h)
    split at h
    · cases h
      exact Runs.respond (lists_mem hc (by simp)) ((Runs.setC1 _).trans
        (Runs.writePush (by simpa using h0) (by simpa using h7)))
    · refine Runs.denormalCheck (lists_mem hc (by simp)) (fun u v hu h => ?_) h
      have hu' : u.sw.top = s.sw.top := by simpa using hu
      split at h
      · cases h; exact (Runs.setC1 _).trans (Runs.writePush (by simpa [hu'] using h0) (by simpa [hu'] using h7))
      · cases h; exact (Runs.setC1 _).trans (Runs.writePush (by simpa [hu'] using h0) (by simpa [hu'] using h7))) h

/-- The conditions of a transcendental instruction. -/
abbrev transConds : List Cond := [.isUnder, .ia, .d, .o, .u, .p]

theorem trig_ended {f : Trig} (hm : i.memForm = none) (hc : lists s.params i transConds = true)
    (hr : AllowsResponses (allowed s i) s.sw.top f.responses)
    (ho : f.pushes = true → .isOver ∈ (allowed s i).conds ∧ AllowsPush (allowed s i) s.sw.top)
    (hz : ∀ (a : Ext) (u : State), u.sw.top = s.sw.top → Runs (allowed s i) u (f.onZero a u))
    (hn : ∀ (a : Ext) (u : State), u.sw.top = s.sw.top → Runs (allowed s i) u (f.onNumber a u))
    (h : s.nonControl i (trig f) = .next t) : Ended s i t :=
  nonControl_ended hm (fun _ h => Runs.trig (lists_mem hc (by simp)) ho (lists_mem hc (by simp))
    (lists_mem hc (by simp)) hr hz hn h) h

theorem fsin_ended {p : List Prefix} (h : execFsin p s = .next t) : Ended s (.fsin p) t := by
  have hc : lists s.params (.fsin p) transConds = true := rfl
  have h0 : s.sw.top ∈ (allowed s (.fsin p)).regs := touches_top (by simp [Instr.touches])
  have hd : AllowsDest (allowed s (.fsin p)) s.sw.top st0 := allowsDest (by simp [Instr.touches, st0]) (by simp [st0])
  exact trig_ended rfl hc hd.responses (by simp) (fun _ _ hu => Runs.setSt (by rw [hu]; simpa using h0))
    (fun _ _ hu => Runs.deliverSt0 (lists_mem hc (by simp)) (lists_mem hc (by simp)) (lists_mem hc (by simp))
      (by rw [hu]; exact h0)) h

theorem fcos_ended {p : List Prefix} (h : execFcos p s = .next t) : Ended s (.fcos p) t := by
  have hc : lists s.params (.fcos p) transConds = true := rfl
  have h0 : s.sw.top ∈ (allowed s (.fcos p)).regs := touches_top (by simp [Instr.touches])
  have hd : AllowsDest (allowed s (.fcos p)) s.sw.top st0 := allowsDest (by simp [Instr.touches, st0]) (by simp [st0])
  exact trig_ended rfl hc hd.responses (by simp) (fun _ _ hu => Runs.setSt (by rw [hu]; simpa using h0))
    (fun _ _ hu => Runs.deliverSt0 (lists_mem hc (by simp)) (lists_mem hc (by simp)) (lists_mem hc (by simp))
      (by rw [hu]; exact h0)) h

theorem fsincos_ended {p : List Prefix} (h : execFsincos p s = .next t) : Ended s (.fsincos p) t := by
  have hc : lists s.params (.fsincos p) transConds = true := rfl
  have h0 : s.sw.top ∈ (allowed s (.fsincos p)).regs := touches_top (by simp [Instr.touches])
  have h7 : AllowsPush (allowed s (.fsincos p)) s.sw.top :=
    allowsPush (by simp [Instr.touches]) (by simp [Instr.topMoves])
  exact trig_ended rfl hc (h7.responses h0) (fun _ => ⟨lists_mem (cs := [.isOver]) rfl (by simp), h7⟩)
    (fun _ _ hu => Runs.writePush (by rw [hu]; exact h0) (by rw [hu]; exact h7))
    (fun _ _ hu => Runs.sinCos (lists_mem hc (by simp)) (lists_mem hc (by simp)) (lists_mem hc (by simp))
      (by rw [hu]; exact h0) (by rw [hu]; exact h7)) h

theorem fptan_ended {p : List Prefix} (h : execFptan p s = .next t) : Ended s (.fptan p) t := by
  have hc : lists s.params (.fptan p) transConds = true := rfl
  have h0 : s.sw.top ∈ (allowed s (.fptan p)).regs := touches_top (by simp [Instr.touches])
  have h7 : AllowsPush (allowed s (.fptan p)) s.sw.top :=
    allowsPush (by simp [Instr.touches]) (by simp [Instr.topMoves])
  exact trig_ended rfl hc (h7.responses h0) (fun _ => ⟨lists_mem (cs := [.isOver]) rfl (by simp), h7⟩)
    (fun _ _ hu => Runs.writePush (by rw [hu]; exact h0) (by rw [hu]; exact h7))
    (fun _ _ hu => (Runs.deliverSt0 (lists_mem hc (by simp)) (lists_mem hc (by simp)) (lists_mem hc (by simp))
      (by rw [hu]; exact h0)).trans (Runs.push (by rw [State.deliverSt0_top, hu]; exact h7))) h

theorem allowsSt1Pop (h0 : 0#3 ∈ i.touches) (h1 : 1#3 ∈ i.touches) (h : 1#3 ∈ i.topMoves) :
    AllowsDest (allowed s i) s.sw.top st1Pop := allowsDest h1 fun _ => ⟨h0, h⟩

theorem fpatan_ended {p : List Prefix} (h : execFpatan p s = .next t) : Ended s (.fpatan p) t :=
  nonControl_ended rfl (fun _ h => by
    have hc : lists s.params (.fpatan p) transConds = true := rfl
    have hd : AllowsDest (allowed s (.fpatan p)) s.sw.top st1Pop :=
      allowsSt1Pop (by simp [Instr.touches]) (by simp [Instr.touches]) (by simp [Instr.topMoves])
    dsimp only at h
    refine Runs.freeCodes.trans (Runs.preChecks (lists_mem hc (by simp)) (by simp) (lists_mem hc (by simp))
      hd.responses (fun t h => ?_) h)
    refine Runs.denormalCheck (lists_mem hc (by simp)) (fun u v hu h => ?_) h
    have hu' : u.sw.top = s.sw.top := by simpa using hu
    split at h
    · cases h
      exact Runs.atanSpecial (lists_mem hc (by simp)) (lists_mem hc (by simp)) (lists_mem hc (by simp))
        (by rw [hu']; exact hd) ‹_›
    · cases h
      exact Runs.deliverDest (lists_mem hc (by simp)) (lists_mem hc (by simp)) (lists_mem hc (by simp))
        (by rw [hu']; exact hd)) h

theorem fyl2x_ended {p : List Prefix} (h : execFyl2x p s = .next t) : Ended s (.fyl2x p) t :=
  nonControl_ended rfl (fun _ h => by
    have hc : lists s.params (.fyl2x p) (.z :: transConds) = true := rfl
    have hd : AllowsDest (allowed s (.fyl2x p)) s.sw.top st1Pop :=
      allowsSt1Pop (by simp [Instr.touches]) (by simp [Instr.touches]) (by simp [Instr.topMoves])
    dsimp only at h
    refine Runs.freeCodes.trans (Runs.preChecks (lists_mem hc (by simp)) (by simp) (lists_mem hc (by simp))
      hd.responses (fun t h => ?_) h)
    split at h
    · cases h; exact Runs.invalidDest (lists_mem hc (by simp)) (by simpa using hd)
    · split at h
      · cases h; exact Runs.respond (lists_mem hc (by simp)) (Runs.exactDest (by simpa using hd))
      · refine Runs.denormalCheck (lists_mem hc (by simp)) (fun u v hu h => ?_) h
        have hu' : u.sw.top = s.sw.top := by simpa using hu
        split at h
        · cases h; exact Runs.exactDest (by rw [hu']; exact hd)
        · cases h
          exact Runs.deliverDest (lists_mem hc (by simp)) (lists_mem hc (by simp)) (lists_mem hc (by simp))
            (by rw [hu']; exact hd)) h

theorem fyl2xp1_ended {p : List Prefix} (h : execFyl2xp1 p s = .next t) : Ended s (.fyl2xp1 p) t :=
  nonControl_ended rfl (fun _ h => by
    have hc : lists s.params (.fyl2xp1 p) transConds = true := rfl
    have hd : AllowsDest (allowed s (.fyl2xp1 p)) s.sw.top st1Pop :=
      allowsSt1Pop (by simp [Instr.touches]) (by simp [Instr.touches]) (by simp [Instr.topMoves])
    dsimp only at h
    refine Runs.freeCodes.trans (Runs.preChecks (lists_mem hc (by simp)) (by simp) (lists_mem hc (by simp))
      hd.responses (fun t h => ?_) h)
    split at h
    · cases h; exact Runs.invalidDest (lists_mem hc (by simp)) (by simpa using hd)
    · refine Runs.denormalCheck (lists_mem hc (by simp)) (fun u v hu h => ?_) h
      have hu' : u.sw.top = s.sw.top := by simpa using hu
      split at h
      · cases h; exact Runs.freeC1.trans (Runs.writeDest (by rw [State.freeC1_top, hu']; exact hd))
      · split at h
        · cases h; exact Runs.exactDest (by rw [hu']; exact hd)
        · split at h
          · cases h; exact Runs.exactDest (by rw [hu']; exact hd)
          · cases h
            exact Runs.deliverDest (lists_mem hc (by simp)) (lists_mem hc (by simp)) (lists_mem hc (by simp))
              (by rw [hu']; exact hd)) h

theorem f2xm1_ended {p : List Prefix} (h : execF2xm1 p s = .next t) : Ended s (.f2xm1 p) t :=
  nonControl_ended rfl (fun _ h => by
    have hc : lists s.params (.f2xm1 p) transConds = true := rfl
    have h0 : s.sw.top ∈ (allowed s (.f2xm1 p)).regs := touches_top (by simp [Instr.touches])
    have hd : AllowsDest (allowed s (.f2xm1 p)) s.sw.top st0 := allowsDest (by simp [Instr.touches, st0]) (by simp
      [st0])
    dsimp only at h
    refine Runs.freeCodes.trans (Runs.preChecks (lists_mem hc (by simp)) (by simp) (lists_mem hc (by simp))
      hd.responses (fun t h => ?_) h)
    refine Runs.denormalCheck (lists_mem hc (by simp)) (fun u v hu h => ?_) h
    have hu' : u.sw.top = s.sw.top := by simpa using hu
    split at h
    · cases h; exact Runs.freeC1.trans (Runs.setSt (by simpa [hu'] using h0))
    · split at h
      · cases h; exact Runs.exactDest (by rw [hu']; exact hd)
      · cases h
        exact Runs.deliverSt0 (lists_mem hc (by simp)) (lists_mem hc (by simp)) (lists_mem hc (by simp))
          (by rw [hu']; exact h0)) h

theorem fscale_ended {p : List Prefix} (h : execFscale p s = .next t) : Ended s (.fscale p) t :=
  nonControl_ended rfl (fun _ h => by
    have hc : lists s.params (.fscale p) transConds = true := rfl
    have h0 : s.sw.top ∈ (allowed s (.fscale p)).regs := touches_top (by simp [Instr.touches])
    have hd : AllowsDest (allowed s (.fscale p)) s.sw.top st0 := allowsDest (by simp [Instr.touches, st0]) (by simp
      [st0])
    dsimp only at h
    refine Runs.freeCodes.trans (Runs.preChecks (lists_mem hc (by simp)) (by simp) (lists_mem hc (by simp))
      hd.responses (fun t h => ?_) h)
    split at h
    · cases h; exact Runs.invalidDest (lists_mem hc (by simp)) (by simpa using hd)
    · refine Runs.denormalCheck (lists_mem hc (by simp)) (fun u v hu h => ?_) h
      have hu' : u.sw.top = s.sw.top := by simpa using hu
      split at h
      · cases h; exact Runs.setC1 _
      · split at h
        · cases h; exact Runs.exactDest (by rw [hu']; exact hd)
        · cases h
          exact Runs.deliverScaled (lists_mem hc (by simp)) (lists_mem hc (by simp)) (lists_mem hc (by simp))
            (by rw [hu']; exact h0)) h

theorem moveTop_ended {f : BitVec 3 → BitVec 3} {d : BitVec 3} (hm : i.memForm = none) (hd : d ∈ i.topMoves)
    (hf : ∀ x, f x = x + d)
    (h : (s.nonControl i fun s => .ok ((s.freeCodes.setC1 false).withTop (f s.sw.top))) = .next t) : Ended s i t :=
  nonControl_ended hm (fun _ h => by
    cases h
    exact (Runs.freeCodes.trans (Runs.setC1 _)).trans (Runs.of (.top _ _ (by rw [hf]; exact moves_mem hd)))) h

theorem ffree_ended {p : List Prefix} {j : StIdx} (h : execFfree p j s = .next t) : Ended s (.ffree p j) t :=
  nonControl_ended rfl (fun _ h => by
    cases h
    exact ((Runs.of (.empty _ _ (touches_mem (by simp [Instr.touches])))).trans Runs.freeCodes).trans Runs.freeC1) h

/-! ### Every non-control instruction -/

/-- A non-control instruction that answers a next state was handed over, or is a run of updates within its tables. -/
theorem exec_ended (i : Instr) (s t : State) (hk : i.keepsPointers = false) (hr : i.replacesState = false)
    (h : exec i s = .next t) : Ended s i t := by
  cases i with
  | faddM32 p m =>
    have h : execFaddM32 p m s = .next t := h
    unfold execFaddM32 at h
    exact arithSingle_ended rfl rfl (by simp) (by simp [Instr.touches]) h
  | fmulM32 p m =>
    have h : execFmulM32 p m s = .next t := h
    unfold execFmulM32 at h
    exact arithSingle_ended rfl rfl (by simp) (by simp [Instr.touches]) h
  | fcomM32 p m =>
    have h : execFcomM32 p m s = .next t := h
    unfold execFcomM32 at h
    exact compareSingle_ended (pops := 0) rfl rfl trivial h
  | fcompM32 p m =>
    have h : execFcompM32 p m s = .next t := h
    unfold execFcompM32 at h
    exact compareSingle_ended (pops := 1) rfl rfl ⟨touches_top (by simp [Instr.touches]), moves_mem (by simp
      [Instr.topMoves])⟩ h
  | fsubM32 p m =>
    have h : execFsubM32 p m s = .next t := h
    unfold execFsubM32 at h
    exact arithSingle_ended rfl rfl (by simp) (by simp [Instr.touches]) h
  | fsubrM32 p m =>
    have h : execFsubrM32 p m s = .next t := h
    unfold execFsubrM32 at h
    exact arithSingle_ended rfl rfl (by simp) (by simp [Instr.touches]) h
  | fdivM32 p m =>
    have h : execFdivM32 p m s = .next t := h
    unfold execFdivM32 at h
    exact arithSingle_ended rfl rfl (fun _ => rfl) (by simp [Instr.touches]) h
  | fdivrM32 p m =>
    have h : execFdivrM32 p m s = .next t := h
    unfold execFdivrM32 at h
    exact arithSingle_ended rfl rfl (fun _ => rfl) (by simp [Instr.touches]) h
  | faddSt0Sti p i =>
    have h : execFaddSt0Sti p i s = .next t := h
    unfold execFaddSt0Sti at h
    exact arithSt0_ended rfl rfl (by simp) (by simp [Instr.touches]) h
  | fmulSt0Sti p i =>
    have h : execFmulSt0Sti p i s = .next t := h
    unfold execFmulSt0Sti at h
    exact arithSt0_ended rfl rfl (by simp) (by simp [Instr.touches]) h
  | fcomSti p i =>
    have h : execFcomSti p i s = .next t := h
    unfold execFcomSti at h
    exact compareReg_ended (pops := 0) rfl rfl trivial h
  | fcompSti p i =>
    have h : execFcompSti p i s = .next t := h
    unfold execFcompSti at h
    exact compareReg_ended (pops := 1) rfl rfl ⟨touches_top (by simp [Instr.touches]), moves_mem (by simp
      [Instr.topMoves])⟩ h
  | fsubSt0Sti p i =>
    have h : execFsubSt0Sti p i s = .next t := h
    unfold execFsubSt0Sti at h
    exact arithSt0_ended rfl rfl (by simp) (by simp [Instr.touches]) h
  | fsubrSt0Sti p i =>
    have h : execFsubrSt0Sti p i s = .next t := h
    unfold execFsubrSt0Sti at h
    exact arithSt0_ended rfl rfl (by simp) (by simp [Instr.touches]) h
  | fdivSt0Sti p i =>
    have h : execFdivSt0Sti p i s = .next t := h
    unfold execFdivSt0Sti at h
    exact arithSt0_ended rfl rfl (fun _ => rfl) (by simp [Instr.touches]) h
  | fdivrSt0Sti p i =>
    have h : execFdivrSt0Sti p i s = .next t := h
    unfold execFdivrSt0Sti at h
    exact arithSt0_ended rfl rfl (fun _ => rfl) (by simp [Instr.touches]) h
  | fldM32 p m =>
    have h : execFldM32 p m s = .next t := h
    unfold execFldM32 at h
    exact nonControlMem_ended rfl (fun _ _ h => loadReal_runs (x := fun u => u.single (s.addr m)) rfl (by simp
      [Instr.touches, Instr.topMoves]) h) h
  | reservedD9m1 _ _ => cases h
  | fstM32 p m =>
    have h : execFstM32 p m s = .next t := h
    unfold execFstM32 at h
    exact storeSingle_ended rfl rfl rfl (by simp) h
  | fstpM32 p m =>
    have h : execFstpM32 p m s = .next t := h
    unfold execFstpM32 at h
    exact storeSingle_ended rfl rfl rfl (fun _ => (by simp [Instr.touches, Instr.topMoves])) h
  | fldenv _ _ => exact nomatch hr
  | fldcw _ _ => exact nomatch hk
  | fnstenv _ _ => exact nomatch hk
  | fnstcw _ _ => exact nomatch hk
  | fldSti p i =>
    have h : execFldSti p i s = .next t := h
    unfold execFldSti at h
    refine nonControl_ended rfl (fun _ h => ?_) h
    cases h
    exact Runs.freeCodes.trans (Runs.loadSt (lists_mem (cs := [.isUnder]) rfl (by simp))
      (lists_mem (cs := [.isOver]) rfl (by simp)) (allowsPush (by simp [Instr.touches]) (by simp [Instr.topMoves])))
  | fxch _ _ => exact fxch_ended h
  | fnop p =>
    have h : execFnop p s = .next t := h
    unfold execFnop at h
    exact nonControl_ended rfl (fun _ h => by cases h; exact Runs.freeCodes.trans Runs.freeC1) h
  | reservedD9D1 _ => cases h
  | reservedD9D2 _ _ => cases h
  | reservedD9D4 _ _ => cases h
  | reservedD9D8 _ _ => cases h
  | fchs p =>
    have h : execFchs p s = .next t := h
    unfold execFchs at h
    exact signOp_ended rfl rfl (by simp [Instr.touches]) h
  | fabs p =>
    have h : execFabs p s = .next t := h
    unfold execFabs at h
    exact signOp_ended rfl rfl (by simp [Instr.touches]) h
  | reservedD9E2 _ _ => cases h
  | ftst p =>
    have h : execFtst p s = .next t := h
    unfold execFtst at h
    exact nonControl_ended rfl (fun _ h => compareCC_runs (pops := 0) rfl trivial h) h
  | fxam p =>
    have h : execFxam p s = .next t := h
    unfold execFxam at h
    exact nonControl_ended rfl (fun _ h => by cases h; exact Runs.examine) h
  | reservedD9E6 _ _ => cases h
  | fld1 p =>
    have h : execFld1 p s = .next t := h
    unfold execFld1 at h
    exact nonControl_ended rfl (fun _ h => loadPush_runs rfl (by simp [Instr.touches, Instr.topMoves]) h) h
  | fldl2t p =>
    have h : execFldl2t p s = .next t := h
    unfold execFldl2t at h
    exact nonControl_ended rfl (fun _ h => loadPush_runs rfl (by simp [Instr.touches, Instr.topMoves]) h) h
  | fldl2e p =>
    have h : execFldl2e p s = .next t := h
    unfold execFldl2e at h
    exact nonControl_ended rfl (fun _ h => loadPush_runs rfl (by simp [Instr.touches, Instr.topMoves]) h) h
  | fldpi p =>
    have h : execFldpi p s = .next t := h
    unfold execFldpi at h
    exact nonControl_ended rfl (fun _ h => loadPush_runs rfl (by simp [Instr.touches, Instr.topMoves]) h) h
  | fldlg2 p =>
    have h : execFldlg2 p s = .next t := h
    unfold execFldlg2 at h
    exact nonControl_ended rfl (fun _ h => loadPush_runs rfl (by simp [Instr.touches, Instr.topMoves]) h) h
  | fldln2 p =>
    have h : execFldln2 p s = .next t := h
    unfold execFldln2 at h
    exact nonControl_ended rfl (fun _ h => loadPush_runs rfl (by simp [Instr.touches, Instr.topMoves]) h) h
  | fldz p =>
    have h : execFldz p s = .next t := h
    unfold execFldz at h
    exact nonControl_ended rfl (fun _ h => loadPush_runs rfl (by simp [Instr.touches, Instr.topMoves]) h) h
  | reservedD9EF _ => cases h
  | f2xm1 _ => exact f2xm1_ended h
  | fyl2x _ => exact fyl2x_ended h
  | fptan _ => exact fptan_ended h
  | fpatan _ => exact fpatan_ended h
  | fxtract _ => exact fxtract_ended h
  | fprem1 p =>
    have h : execFprem1 p s = .next t := h
    unfold execFprem1 at h
    exact prem_ended rfl rfl (by simp [Instr.touches]) h
  | fdecstp p =>
    have h : execFdecstp p s = .next t := h
    unfold execFdecstp at h
    exact moveTop_ended (f := fun x => x - 1#3) (d := 7#3) rfl (by simp [Instr.topMoves]) sub_one_eq h
  | fincstp p =>
    have h : execFincstp p s = .next t := h
    unfold execFincstp at h
    exact moveTop_ended (f := fun x => x + 1#3) (d := 1#3) rfl (by simp [Instr.topMoves]) (fun _ => rfl) h
  | fprem p =>
    have h : execFprem p s = .next t := h
    unfold execFprem at h
    exact prem_ended rfl rfl (by simp [Instr.touches]) h
  | fyl2xp1 _ => exact fyl2xp1_ended h
  | fsqrt _ => exact fsqrt_ended h
  | fsincos _ => exact fsincos_ended h
  | frndint _ => exact frndint_ended h
  | fscale _ => exact fscale_ended h
  | fsin _ => exact fsin_ended h
  | fcos _ => exact fcos_ended h
  | fiaddM32i p m =>
    have h : execFiaddM32i p m s = .next t := h
    unfold execFiaddM32i at h
    exact arithInt_ended rfl rfl (by simp) (by simp [Instr.touches]) h
  | fimulM32i p m =>
    have h : execFimulM32i p m s = .next t := h
    unfold execFimulM32i at h
    exact arithInt_ended rfl rfl (by simp) (by simp [Instr.touches]) h
  | ficomM32i p m =>
    have h : execFicomM32i p m s = .next t := h
    unfold execFicomM32i at h
    exact compareInt_ended (pops := 0) rfl rfl trivial h
  | ficompM32i p m =>
    have h : execFicompM32i p m s = .next t := h
    unfold execFicompM32i at h
    exact compareInt_ended (pops := 1) rfl rfl ⟨touches_top (by simp [Instr.touches]), moves_mem (by simp
      [Instr.topMoves])⟩ h
  | fisubM32i p m =>
    have h : execFisubM32i p m s = .next t := h
    unfold execFisubM32i at h
    exact arithInt_ended rfl rfl (by simp) (by simp [Instr.touches]) h
  | fisubrM32i p m =>
    have h : execFisubrM32i p m s = .next t := h
    unfold execFisubrM32i at h
    exact arithInt_ended rfl rfl (by simp) (by simp [Instr.touches]) h
  | fidivM32i p m =>
    have h : execFidivM32i p m s = .next t := h
    unfold execFidivM32i at h
    exact arithInt_ended rfl rfl (fun _ => rfl) (by simp [Instr.touches]) h
  | fidivrM32i p m =>
    have h : execFidivrM32i p m s = .next t := h
    unfold execFidivrM32i at h
    exact arithInt_ended rfl rfl (fun _ => rfl) (by simp [Instr.touches]) h
  | fcmovb p i =>
    have h : execFcmovb p i s = .next t := h
    unfold execFcmovb at h
    exact cmov_ended rfl rfl (by simp [Instr.touches]) h
  | fcmove p i =>
    have h : execFcmove p i s = .next t := h
    unfold execFcmove at h
    exact cmov_ended rfl rfl (by simp [Instr.touches]) h
  | fcmovbe p i =>
    have h : execFcmovbe p i s = .next t := h
    unfold execFcmovbe at h
    exact cmov_ended rfl rfl (by simp [Instr.touches]) h
  | fcmovu p i =>
    have h : execFcmovu p i s = .next t := h
    unfold execFcmovu at h
    exact cmov_ended rfl rfl (by simp [Instr.touches]) h
  | reservedDAE0 _ _ => cases h
  | reservedDAE8 _ => cases h
  | fucompp p =>
    have h : execFucompp p s = .next t := h
    unfold execFucompp at h
    exact compareReg_ended (pops := 2) rfl rfl ⟨touches_top (by simp [Instr.touches]), touches_mem (by simp
      [Instr.touches]), moves_mem (by simp [Instr.topMoves])⟩ h
  | reservedDAEA _ _ => cases h
  | reservedDAEC _ _ => cases h
  | reservedDAF0 _ _ => cases h
  | fildM32i p m =>
    have h : execFildM32i p m s = .next t := h
    unfold execFildM32i at h
    exact nonControlMem_ended rfl (fun _ _ h => loadPush_runs rfl (by simp [Instr.touches, Instr.topMoves]) h) h
  | reservedDBm1 _ _ => cases h
  | fistM32i p m =>
    have h : execFistM32i p m s = .next t := h
    unfold execFistM32i at h
    exact storeInt_ended rfl rfl rfl (by simp) h
  | fistpM32i p m =>
    have h : execFistpM32i p m s = .next t := h
    unfold execFistpM32i at h
    exact storeInt_ended rfl rfl rfl (fun _ => (by simp [Instr.touches, Instr.topMoves])) h
  | reservedDBm4 _ _ => cases h
  | fldM80 p m =>
    have h : execFldM80 p m s = .next t := h
    unfold execFldM80 at h
    exact nonControlMem_ended rfl (fun _ _ h => loadPush_runs rfl (by simp [Instr.touches, Instr.topMoves]) h) h
  | reservedDBm6 _ _ => cases h
  | fstpM80 _ _ => exact fstpM80_ended h
  | fcmovnb p i =>
    have h : execFcmovnb p i s = .next t := h
    unfold execFcmovnb at h
    exact cmov_ended rfl rfl (by simp [Instr.touches]) h
  | fcmovne p i =>
    have h : execFcmovne p i s = .next t := h
    unfold execFcmovne at h
    exact cmov_ended rfl rfl (by simp [Instr.touches]) h
  | fcmovnbe p i =>
    have h : execFcmovnbe p i s = .next t := h
    unfold execFcmovnbe at h
    exact cmov_ended rfl rfl (by simp [Instr.touches]) h
  | fcmovnu p i =>
    have h : execFcmovnu p i s = .next t := h
    unfold execFcmovnu at h
    exact cmov_ended rfl rfl (by simp [Instr.touches]) h
  | feni _ => exact nomatch hk
  | fdisi _ => exact nomatch hk
  | fnclex _ => exact nomatch hk
  | fninit _ => exact nomatch hr
  | fsetpm _ => exact nomatch hk
  | reservedDBE5 _ => cases h
  | reservedDBE6 _ _ => cases h
  | fucomi p i =>
    have h : execFucomi p i s = .next t := h
    unfold execFucomi at h
    exact compareRegEflags_ended (pops := 0) rfl rfl rfl trivial h
  | fcomi p i =>
    have h : execFcomi p i s = .next t := h
    unfold execFcomi at h
    exact compareRegEflags_ended (pops := 0) rfl rfl rfl trivial h
  | reservedDBF8 _ _ => cases h
  | faddM64 p m =>
    have h : execFaddM64 p m s = .next t := h
    unfold execFaddM64 at h
    exact arithDouble_ended rfl rfl (by simp) (by simp [Instr.touches]) h
  | fmulM64 p m =>
    have h : execFmulM64 p m s = .next t := h
    unfold execFmulM64 at h
    exact arithDouble_ended rfl rfl (by simp) (by simp [Instr.touches]) h
  | fcomM64 p m =>
    have h : execFcomM64 p m s = .next t := h
    unfold execFcomM64 at h
    exact compareDouble_ended (pops := 0) rfl rfl trivial h
  | fcompM64 p m =>
    have h : execFcompM64 p m s = .next t := h
    unfold execFcompM64 at h
    exact compareDouble_ended (pops := 1) rfl rfl ⟨touches_top (by simp [Instr.touches]), moves_mem (by simp
      [Instr.topMoves])⟩ h
  | fsubM64 p m =>
    have h : execFsubM64 p m s = .next t := h
    unfold execFsubM64 at h
    exact arithDouble_ended rfl rfl (by simp) (by simp [Instr.touches]) h
  | fsubrM64 p m =>
    have h : execFsubrM64 p m s = .next t := h
    unfold execFsubrM64 at h
    exact arithDouble_ended rfl rfl (by simp) (by simp [Instr.touches]) h
  | fdivM64 p m =>
    have h : execFdivM64 p m s = .next t := h
    unfold execFdivM64 at h
    exact arithDouble_ended rfl rfl (fun _ => rfl) (by simp [Instr.touches]) h
  | fdivrM64 p m =>
    have h : execFdivrM64 p m s = .next t := h
    unfold execFdivrM64 at h
    exact arithDouble_ended rfl rfl (fun _ => rfl) (by simp [Instr.touches]) h
  | faddStiSt0 p i =>
    have h : execFaddStiSt0 p i s = .next t := h
    unfold execFaddStiSt0 at h
    exact arithSti_ended rfl rfl (by simp) (by simp [Instr.touches]) (by simp) h
  | fmulStiSt0 p i =>
    have h : execFmulStiSt0 p i s = .next t := h
    unfold execFmulStiSt0 at h
    exact arithSti_ended rfl rfl (by simp) (by simp [Instr.touches]) (by simp) h
  | reservedDCD0 _ _ => cases h
  | fsubrStiSt0 p i =>
    have h : execFsubrStiSt0 p i s = .next t := h
    unfold execFsubrStiSt0 at h
    exact arithSti_ended rfl rfl (by simp) (by simp [Instr.touches]) (by simp) h
  | fsubStiSt0 p i =>
    have h : execFsubStiSt0 p i s = .next t := h
    unfold execFsubStiSt0 at h
    exact arithSti_ended rfl rfl (by simp) (by simp [Instr.touches]) (by simp) h
  | fdivrStiSt0 p i =>
    have h : execFdivrStiSt0 p i s = .next t := h
    unfold execFdivrStiSt0 at h
    exact arithSti_ended rfl rfl (fun _ => rfl) (by simp [Instr.touches]) (by simp) h
  | fdivStiSt0 p i =>
    have h : execFdivStiSt0 p i s = .next t := h
    unfold execFdivStiSt0 at h
    exact arithSti_ended rfl rfl (fun _ => rfl) (by simp [Instr.touches]) (by simp) h
  | fldM64 p m =>
    have h : execFldM64 p m s = .next t := h
    unfold execFldM64 at h
    exact nonControlMem_ended rfl (fun _ _ h => loadReal_runs (x := fun u => u.double (s.addr m)) rfl (by simp
      [Instr.touches, Instr.topMoves]) h) h
  | reservedDDm1 _ _ => cases h
  | fstM64 p m =>
    have h : execFstM64 p m s = .next t := h
    unfold execFstM64 at h
    exact storeDouble_ended rfl rfl rfl (by simp) h
  | fstpM64 p m =>
    have h : execFstpM64 p m s = .next t := h
    unfold execFstpM64 at h
    exact storeDouble_ended rfl rfl rfl (fun _ => (by simp [Instr.touches, Instr.topMoves])) h
  | frstor _ _ => exact nomatch hr
  | reservedDDm5 _ _ => cases h
  | fnsave _ _ => exact nomatch hr
  | fnstswM16 _ _ => exact nomatch hk
  | ffree _ _ => exact ffree_ended h
  | reservedDDC8 _ _ => cases h
  | fstSti p i =>
    have h : execFstSti p i s = .next t := h
    unfold execFstSti at h
    exact copySt_ended rfl rfl (by simp [Instr.touches]) (by simp) h
  | fstpSti p i =>
    have h : execFstpSti p i s = .next t := h
    unfold execFstpSti at h
    exact copySt_ended rfl rfl (by simp [Instr.touches]) (fun _ => (by simp [Instr.touches, Instr.topMoves])) h
  | fucom p i =>
    have h : execFucom p i s = .next t := h
    unfold execFucom at h
    exact compareReg_ended (pops := 0) rfl rfl trivial h
  | fucomp p i =>
    have h : execFucomp p i s = .next t := h
    unfold execFucomp at h
    exact compareReg_ended (pops := 1) rfl rfl ⟨touches_top (by simp [Instr.touches]), moves_mem (by simp
      [Instr.topMoves])⟩ h
  | reservedDDF0 _ _ => cases h
  | fiaddM16i p m =>
    have h : execFiaddM16i p m s = .next t := h
    unfold execFiaddM16i at h
    exact arithInt_ended rfl rfl (by simp) (by simp [Instr.touches]) h
  | fimulM16i p m =>
    have h : execFimulM16i p m s = .next t := h
    unfold execFimulM16i at h
    exact arithInt_ended rfl rfl (by simp) (by simp [Instr.touches]) h
  | ficomM16i p m =>
    have h : execFicomM16i p m s = .next t := h
    unfold execFicomM16i at h
    exact compareInt_ended (pops := 0) rfl rfl trivial h
  | ficompM16i p m =>
    have h : execFicompM16i p m s = .next t := h
    unfold execFicompM16i at h
    exact compareInt_ended (pops := 1) rfl rfl ⟨touches_top (by simp [Instr.touches]), moves_mem (by simp
      [Instr.topMoves])⟩ h
  | fisubM16i p m =>
    have h : execFisubM16i p m s = .next t := h
    unfold execFisubM16i at h
    exact arithInt_ended rfl rfl (by simp) (by simp [Instr.touches]) h
  | fisubrM16i p m =>
    have h : execFisubrM16i p m s = .next t := h
    unfold execFisubrM16i at h
    exact arithInt_ended rfl rfl (by simp) (by simp [Instr.touches]) h
  | fidivM16i p m =>
    have h : execFidivM16i p m s = .next t := h
    unfold execFidivM16i at h
    exact arithInt_ended rfl rfl (fun _ => rfl) (by simp [Instr.touches]) h
  | fidivrM16i p m =>
    have h : execFidivrM16i p m s = .next t := h
    unfold execFidivrM16i at h
    exact arithInt_ended rfl rfl (fun _ => rfl) (by simp [Instr.touches]) h
  | faddp p i =>
    have h : execFaddp p i s = .next t := h
    unfold execFaddp at h
    exact arithSti_ended rfl rfl (by simp) (by simp [Instr.touches]) (fun _ => (by simp [Instr.touches,
      Instr.topMoves])) h
  | fmulp p i =>
    have h : execFmulp p i s = .next t := h
    unfold execFmulp at h
    exact arithSti_ended rfl rfl (by simp) (by simp [Instr.touches]) (fun _ => (by simp [Instr.touches,
      Instr.topMoves])) h
  | reservedDED0 _ _ => cases h
  | reservedDED8 _ => cases h
  | fcompp p =>
    have h : execFcompp p s = .next t := h
    unfold execFcompp at h
    exact compareReg_ended (pops := 2) rfl rfl ⟨touches_top (by simp [Instr.touches]), touches_mem (by simp
      [Instr.touches]), moves_mem (by simp [Instr.topMoves])⟩ h
  | reservedDEDA _ _ => cases h
  | reservedDEDC _ _ => cases h
  | fsubrp p i =>
    have h : execFsubrp p i s = .next t := h
    unfold execFsubrp at h
    exact arithSti_ended rfl rfl (by simp) (by simp [Instr.touches]) (fun _ => (by simp [Instr.touches,
      Instr.topMoves])) h
  | fsubp p i =>
    have h : execFsubp p i s = .next t := h
    unfold execFsubp at h
    exact arithSti_ended rfl rfl (by simp) (by simp [Instr.touches]) (fun _ => (by simp [Instr.touches,
      Instr.topMoves])) h
  | fdivrp p i =>
    have h : execFdivrp p i s = .next t := h
    unfold execFdivrp at h
    exact arithSti_ended rfl rfl (fun _ => rfl) (by simp [Instr.touches]) (fun _ => (by simp [Instr.touches,
      Instr.topMoves])) h
  | fdivp p i =>
    have h : execFdivp p i s = .next t := h
    unfold execFdivp at h
    exact arithSti_ended rfl rfl (fun _ => rfl) (by simp [Instr.touches]) (fun _ => (by simp [Instr.touches,
      Instr.topMoves])) h
  | fildM16i p m =>
    have h : execFildM16i p m s = .next t := h
    unfold execFildM16i at h
    exact nonControlMem_ended rfl (fun _ _ h => loadPush_runs rfl (by simp [Instr.touches, Instr.topMoves]) h) h
  | reservedDFm1 _ _ => cases h
  | fistM16i p m =>
    have h : execFistM16i p m s = .next t := h
    unfold execFistM16i at h
    exact storeInt_ended rfl rfl rfl (by simp) h
  | fistpM16i p m =>
    have h : execFistpM16i p m s = .next t := h
    unfold execFistpM16i at h
    exact storeInt_ended rfl rfl rfl (fun _ => (by simp [Instr.touches, Instr.topMoves])) h
  | fbld p m =>
    have h : execFbld p m s = .next t := h
    unfold execFbld at h
    exact nonControlMem_ended rfl (fun _ _ h => loadPush_runs rfl (by simp [Instr.touches, Instr.topMoves]) h) h
  | fildM64i p m =>
    have h : execFildM64i p m s = .next t := h
    unfold execFildM64i at h
    exact nonControlMem_ended rfl (fun _ _ h => loadPush_runs rfl (by simp [Instr.touches, Instr.topMoves]) h) h
  | fbstp _ _ => exact fbstp_ended h
  | fistpM64i p m =>
    have h : execFistpM64i p m s = .next t := h
    unfold execFistpM64i at h
    exact storeInt_ended rfl rfl rfl (fun _ => (by simp [Instr.touches, Instr.topMoves])) h
  | reservedDFC0 _ _ => cases h
  | fnstswAx _ => exact nomatch hk
  | reservedDFE1 _ => cases h
  | reservedDFE2 _ _ => cases h
  | reservedDFE4 _ _ => cases h
  | fucomip p i =>
    have h : execFucomip p i s = .next t := h
    unfold execFucomip at h
    exact compareRegEflags_ended (pops := 1) rfl rfl rfl ⟨touches_top (by simp [Instr.touches]), moves_mem (by simp
      [Instr.topMoves])⟩ h
  | fcomip p i =>
    have h : execFcomip p i s = .next t := h
    unfold execFcomip at h
    exact compareRegEflags_ended (pops := 1) rfl rfl rfl ⟨touches_top (by simp [Instr.touches]), moves_mem (by simp
      [Instr.topMoves])⟩ h
  | reservedDFF8 _ _ => cases h
  | wait _ => exact nomatch hk
  | finit _ => exact nomatch hr
  | fclex _ => exact nomatch hk
  | fstcw _ _ => exact nomatch hk
  | fstswM16 _ _ => exact nomatch hk
  | fstswAx _ => exact nomatch hk
  | fstenv _ _ => exact nomatch hk
  | fsave _ _ => exact nomatch hr

/-! ### Every control instruction -/

/-- What the control instructions do before the host advances. -/
inductive ControlEffect (s : State) : Instr → State → Prop where
  | init (p : List Prefix) (i : Instr) (h : i = .fninit p ∨ i = .finit p) : ControlEffect s i s.initFpu
  | clear (p : List Prefix) (i : Instr) (h : i = .fnclex p ∨ i = .fclex p) : ControlEffect s i s.clearExceptions
  | loadCw (p : List Prefix) (m : MemForm) (h : s.inRange m 2 = true) :
    ControlEffect s (.fldcw p m) ((s.withCw (s.word (s.addr m) 0)).refreshEs.freeCodes).freeC1
  | storeCw (p : List Prefix) (m : MemForm) (i : Instr) (hi : i = .fnstcw p m ∨ i = .fstcw p m)
    (h : s.inRange m 2 = true) : ControlEffect s i (s.store (s.addr m) 2 (cwImage s.cw s.draws).toNat)
  | storeSw (p : List Prefix) (m : MemForm) (i : Instr) (hi : i = .fnstswM16 p m ∨ i = .fstswM16 p m)
    (h : s.inRange m 2 = true) : ControlEffect s i (s.store (s.addr m) 2 s.sw.toBits.toNat)
  | storeAx (p : List Prefix) (i : Instr) (hi : i = .fnstswAx p ∨ i = .fstswAx p) :
    ControlEffect s i (s.setAx s.sw.toBits)
  | loadEnv (p : List Prefix) (m : MemForm) (h : s.inRange m (s.imageFormat p).size = true) :
    ControlEffect s (.fldenv p m) (s.loadEnv (s.readEnv (s.imageFormat p) (s.addr m))).refreshEs
  | storeEnv (p : List Prefix) (m : MemForm) (i : Instr) (hi : i = .fnstenv p m ∨ i = .fstenv p m)
    (h : s.inRange m (s.imageFormat p).size = true) :
    ControlEffect s i (s.storeEnv (s.imageFormat p) (s.addr m)).maskAll
  | restore (p : List Prefix) (m : MemForm) (e : Env) (he : e = s.readEnv (s.imageFormat p) (s.addr m))
    (h : s.inRange m ((s.imageFormat p).size + 80) = true) :
    ControlEffect s (.frstor p m)
      ((s.withRegs (s.readStack (StatusWord.ofBits e.sw).top (s.addr m + (s.imageFormat p).size))).loadEnv e).refreshEs
  | save (p : List Prefix) (m : MemForm) (i : Instr) (hi : i = .fnsave p m ∨ i = .fsave p m)
    (h : s.inRange m ((s.imageFormat p).size + 80) = true) :
    ControlEffect s i
      ((s.storeEnv (s.imageFormat p) (s.addr m)).store (s.addr m + (s.imageFormat p).size) 80 (s.stackImage 8)).initFpu
  | nothing (p : List Prefix) (i : Instr) (h : i = .wait p ∨ i = .feni p ∨ i = .fdisi p ∨ i = .fsetpm p) :
    ControlEffect s i s

/-- A control instruction that answers a next state was handed over, where it waits, or had its effect. -/
theorem exec_control (i : Instr) (s t : State) (hk : i.keepsPointers = true ∨ i.replacesState = true)
    (h : exec i s = .next t) :
    (i.nonWaiting = false ∧ s.pending = .mf ∧ t = s.raiseMF) ∨
      (i.nonWaiting = false ∧ s.pending = .frozen ∧ t = s.freeze) ∨
        ((i.nonWaiting = false → s.pending = .clear) ∧ ∃ u, ControlEffect s i u ∧ t = u.advance i.length) := by
  have now : ∀ {u : State}, i.nonWaiting = true → ControlEffect s i u → t = u.advance i.length →
      (i.nonWaiting = false ∧ s.pending = .mf ∧ t = s.raiseMF) ∨
      (i.nonWaiting = false ∧ s.pending = .frozen ∧ t = s.freeze) ∨
        ((i.nonWaiting = false → s.pending = .clear) ∧ ∃ u, ControlEffect s i u ∧ t = u.advance i.length) :=
    fun hn hu ht => .inr (.inr ⟨fun e => absurd (hn.symm.trans e) (by simp), _, hu, ht⟩)
  have waits : ∀ {body : State → Result}, i.nonWaiting = false → s.waiting body = .next t →
      (body s = .next t → ∃ u, ControlEffect s i u ∧ t = u.advance i.length) →
      (i.nonWaiting = false ∧ s.pending = .mf ∧ t = s.raiseMF) ∨
      (i.nonWaiting = false ∧ s.pending = .frozen ∧ t = s.freeze) ∨
        ((i.nonWaiting = false → s.pending = .clear) ∧ ∃ u, ControlEffect s i u ∧ t = u.advance i.length) :=
    fun hn h hb => (waiting_next h).imp (fun h => ⟨hn, h⟩) (Or.imp (fun h => ⟨hn, h⟩) fun h => ⟨fun _ => h.1, hb h.2⟩)
  cases i with
  | faddM32 _ _ => exact absurd hk (by simp [Instr.keepsPointers, Instr.replacesState])
  | fmulM32 _ _ => exact absurd hk (by simp [Instr.keepsPointers, Instr.replacesState])
  | fcomM32 _ _ => exact absurd hk (by simp [Instr.keepsPointers, Instr.replacesState])
  | fcompM32 _ _ => exact absurd hk (by simp [Instr.keepsPointers, Instr.replacesState])
  | fsubM32 _ _ => exact absurd hk (by simp [Instr.keepsPointers, Instr.replacesState])
  | fsubrM32 _ _ => exact absurd hk (by simp [Instr.keepsPointers, Instr.replacesState])
  | fdivM32 _ _ => exact absurd hk (by simp [Instr.keepsPointers, Instr.replacesState])
  | fdivrM32 _ _ => exact absurd hk (by simp [Instr.keepsPointers, Instr.replacesState])
  | faddSt0Sti _ _ => exact absurd hk (by simp [Instr.keepsPointers, Instr.replacesState])
  | fmulSt0Sti _ _ => exact absurd hk (by simp [Instr.keepsPointers, Instr.replacesState])
  | fcomSti _ _ => exact absurd hk (by simp [Instr.keepsPointers, Instr.replacesState])
  | fcompSti _ _ => exact absurd hk (by simp [Instr.keepsPointers, Instr.replacesState])
  | fsubSt0Sti _ _ => exact absurd hk (by simp [Instr.keepsPointers, Instr.replacesState])
  | fsubrSt0Sti _ _ => exact absurd hk (by simp [Instr.keepsPointers, Instr.replacesState])
  | fdivSt0Sti _ _ => exact absurd hk (by simp [Instr.keepsPointers, Instr.replacesState])
  | fdivrSt0Sti _ _ => exact absurd hk (by simp [Instr.keepsPointers, Instr.replacesState])
  | fldM32 _ _ => exact absurd hk (by simp [Instr.keepsPointers, Instr.replacesState])
  | reservedD9m1 _ _ => exact absurd hk (by simp [Instr.keepsPointers, Instr.replacesState])
  | fstM32 _ _ => exact absurd hk (by simp [Instr.keepsPointers, Instr.replacesState])
  | fstpM32 _ _ => exact absurd hk (by simp [Instr.keepsPointers, Instr.replacesState])
  | fldenv p m =>
    have h : execFldenv p m s = .next t := h
    unfold execFldenv at h
    refine waits rfl h fun h => ?_
    obtain ⟨hr, h⟩ := controlMem_next (s := s) h
    exact ⟨_, .loadEnv p m hr, h⟩
  | fldcw p m =>
    have h : execFldcw p m s = .next t := h
    unfold execFldcw at h
    refine waits rfl h fun h => ?_
    obtain ⟨hr, h⟩ := controlMem_next (s := s) h
    exact ⟨_, .loadCw p m hr, h⟩
  | fnstenv p m =>
    have h : execFnstenv p m s = .next t := h
    unfold execFnstenv fnstenvBody at h
    obtain ⟨hr, h⟩ := controlMem_next (s := s) h
    exact now rfl (.storeEnv p m _ (by simp) hr) h
  | fnstcw p m =>
    have h : execFnstcw p m s = .next t := h
    unfold execFnstcw fnstcwBody at h
    obtain ⟨hr, h⟩ := controlMem_next (s := s) h
    exact now rfl (.storeCw p m _ (by simp) hr) h
  | fldSti _ _ => exact absurd hk (by simp [Instr.keepsPointers, Instr.replacesState])
  | fxch _ _ => exact absurd hk (by simp [Instr.keepsPointers, Instr.replacesState])
  | fnop _ => exact absurd hk (by simp [Instr.keepsPointers, Instr.replacesState])
  | reservedD9D1 _ => exact absurd hk (by simp [Instr.keepsPointers, Instr.replacesState])
  | reservedD9D2 _ _ => exact absurd hk (by simp [Instr.keepsPointers, Instr.replacesState])
  | reservedD9D4 _ _ => exact absurd hk (by simp [Instr.keepsPointers, Instr.replacesState])
  | reservedD9D8 _ _ => exact absurd hk (by simp [Instr.keepsPointers, Instr.replacesState])
  | fchs _ => exact absurd hk (by simp [Instr.keepsPointers, Instr.replacesState])
  | fabs _ => exact absurd hk (by simp [Instr.keepsPointers, Instr.replacesState])
  | reservedD9E2 _ _ => exact absurd hk (by simp [Instr.keepsPointers, Instr.replacesState])
  | ftst _ => exact absurd hk (by simp [Instr.keepsPointers, Instr.replacesState])
  | fxam _ => exact absurd hk (by simp [Instr.keepsPointers, Instr.replacesState])
  | reservedD9E6 _ _ => exact absurd hk (by simp [Instr.keepsPointers, Instr.replacesState])
  | fld1 _ => exact absurd hk (by simp [Instr.keepsPointers, Instr.replacesState])
  | fldl2t _ => exact absurd hk (by simp [Instr.keepsPointers, Instr.replacesState])
  | fldl2e _ => exact absurd hk (by simp [Instr.keepsPointers, Instr.replacesState])
  | fldpi _ => exact absurd hk (by simp [Instr.keepsPointers, Instr.replacesState])
  | fldlg2 _ => exact absurd hk (by simp [Instr.keepsPointers, Instr.replacesState])
  | fldln2 _ => exact absurd hk (by simp [Instr.keepsPointers, Instr.replacesState])
  | fldz _ => exact absurd hk (by simp [Instr.keepsPointers, Instr.replacesState])
  | reservedD9EF _ => exact absurd hk (by simp [Instr.keepsPointers, Instr.replacesState])
  | f2xm1 _ => exact absurd hk (by simp [Instr.keepsPointers, Instr.replacesState])
  | fyl2x _ => exact absurd hk (by simp [Instr.keepsPointers, Instr.replacesState])
  | fptan _ => exact absurd hk (by simp [Instr.keepsPointers, Instr.replacesState])
  | fpatan _ => exact absurd hk (by simp [Instr.keepsPointers, Instr.replacesState])
  | fxtract _ => exact absurd hk (by simp [Instr.keepsPointers, Instr.replacesState])
  | fprem1 _ => exact absurd hk (by simp [Instr.keepsPointers, Instr.replacesState])
  | fdecstp _ => exact absurd hk (by simp [Instr.keepsPointers, Instr.replacesState])
  | fincstp _ => exact absurd hk (by simp [Instr.keepsPointers, Instr.replacesState])
  | fprem _ => exact absurd hk (by simp [Instr.keepsPointers, Instr.replacesState])
  | fyl2xp1 _ => exact absurd hk (by simp [Instr.keepsPointers, Instr.replacesState])
  | fsqrt _ => exact absurd hk (by simp [Instr.keepsPointers, Instr.replacesState])
  | fsincos _ => exact absurd hk (by simp [Instr.keepsPointers, Instr.replacesState])
  | frndint _ => exact absurd hk (by simp [Instr.keepsPointers, Instr.replacesState])
  | fscale _ => exact absurd hk (by simp [Instr.keepsPointers, Instr.replacesState])
  | fsin _ => exact absurd hk (by simp [Instr.keepsPointers, Instr.replacesState])
  | fcos _ => exact absurd hk (by simp [Instr.keepsPointers, Instr.replacesState])
  | fiaddM32i _ _ => exact absurd hk (by simp [Instr.keepsPointers, Instr.replacesState])
  | fimulM32i _ _ => exact absurd hk (by simp [Instr.keepsPointers, Instr.replacesState])
  | ficomM32i _ _ => exact absurd hk (by simp [Instr.keepsPointers, Instr.replacesState])
  | ficompM32i _ _ => exact absurd hk (by simp [Instr.keepsPointers, Instr.replacesState])
  | fisubM32i _ _ => exact absurd hk (by simp [Instr.keepsPointers, Instr.replacesState])
  | fisubrM32i _ _ => exact absurd hk (by simp [Instr.keepsPointers, Instr.replacesState])
  | fidivM32i _ _ => exact absurd hk (by simp [Instr.keepsPointers, Instr.replacesState])
  | fidivrM32i _ _ => exact absurd hk (by simp [Instr.keepsPointers, Instr.replacesState])
  | fcmovb _ _ => exact absurd hk (by simp [Instr.keepsPointers, Instr.replacesState])
  | fcmove _ _ => exact absurd hk (by simp [Instr.keepsPointers, Instr.replacesState])
  | fcmovbe _ _ => exact absurd hk (by simp [Instr.keepsPointers, Instr.replacesState])
  | fcmovu _ _ => exact absurd hk (by simp [Instr.keepsPointers, Instr.replacesState])
  | reservedDAE0 _ _ => exact absurd hk (by simp [Instr.keepsPointers, Instr.replacesState])
  | reservedDAE8 _ => exact absurd hk (by simp [Instr.keepsPointers, Instr.replacesState])
  | fucompp _ => exact absurd hk (by simp [Instr.keepsPointers, Instr.replacesState])
  | reservedDAEA _ _ => exact absurd hk (by simp [Instr.keepsPointers, Instr.replacesState])
  | reservedDAEC _ _ => exact absurd hk (by simp [Instr.keepsPointers, Instr.replacesState])
  | reservedDAF0 _ _ => exact absurd hk (by simp [Instr.keepsPointers, Instr.replacesState])
  | fildM32i _ _ => exact absurd hk (by simp [Instr.keepsPointers, Instr.replacesState])
  | reservedDBm1 _ _ => exact absurd hk (by simp [Instr.keepsPointers, Instr.replacesState])
  | fistM32i _ _ => exact absurd hk (by simp [Instr.keepsPointers, Instr.replacesState])
  | fistpM32i _ _ => exact absurd hk (by simp [Instr.keepsPointers, Instr.replacesState])
  | reservedDBm4 _ _ => exact absurd hk (by simp [Instr.keepsPointers, Instr.replacesState])
  | fldM80 _ _ => exact absurd hk (by simp [Instr.keepsPointers, Instr.replacesState])
  | reservedDBm6 _ _ => exact absurd hk (by simp [Instr.keepsPointers, Instr.replacesState])
  | fstpM80 _ _ => exact absurd hk (by simp [Instr.keepsPointers, Instr.replacesState])
  | fcmovnb _ _ => exact absurd hk (by simp [Instr.keepsPointers, Instr.replacesState])
  | fcmovne _ _ => exact absurd hk (by simp [Instr.keepsPointers, Instr.replacesState])
  | fcmovnbe _ _ => exact absurd hk (by simp [Instr.keepsPointers, Instr.replacesState])
  | fcmovnu _ _ => exact absurd hk (by simp [Instr.keepsPointers, Instr.replacesState])
  | feni p =>
    have h : execFeni p s = .next t := h
    unfold execFeni at h
    exact now rfl (.nothing p _ (by simp)) (control_next (s := s) h)
  | fdisi p =>
    have h : execFdisi p s = .next t := h
    unfold execFdisi at h
    exact now rfl (.nothing p _ (by simp)) (control_next (s := s) h)
  | fnclex p =>
    have h : execFnclex p s = .next t := h
    unfold execFnclex fnclexBody at h
    exact now rfl (.clear p _ (by simp)) (control_next (s := s) h)
  | fninit p =>
    have h : execFninit p s = .next t := h
    unfold execFninit fninitBody at h
    exact now rfl (.init p _ (by simp)) (control_next (s := s) h)
  | fsetpm p =>
    have h : execFsetpm p s = .next t := h
    unfold execFsetpm at h
    exact now rfl (.nothing p _ (by simp)) (control_next (s := s) h)
  | reservedDBE5 _ => exact absurd hk (by simp [Instr.keepsPointers, Instr.replacesState])
  | reservedDBE6 _ _ => exact absurd hk (by simp [Instr.keepsPointers, Instr.replacesState])
  | fucomi _ _ => exact absurd hk (by simp [Instr.keepsPointers, Instr.replacesState])
  | fcomi _ _ => exact absurd hk (by simp [Instr.keepsPointers, Instr.replacesState])
  | reservedDBF8 _ _ => exact absurd hk (by simp [Instr.keepsPointers, Instr.replacesState])
  | faddM64 _ _ => exact absurd hk (by simp [Instr.keepsPointers, Instr.replacesState])
  | fmulM64 _ _ => exact absurd hk (by simp [Instr.keepsPointers, Instr.replacesState])
  | fcomM64 _ _ => exact absurd hk (by simp [Instr.keepsPointers, Instr.replacesState])
  | fcompM64 _ _ => exact absurd hk (by simp [Instr.keepsPointers, Instr.replacesState])
  | fsubM64 _ _ => exact absurd hk (by simp [Instr.keepsPointers, Instr.replacesState])
  | fsubrM64 _ _ => exact absurd hk (by simp [Instr.keepsPointers, Instr.replacesState])
  | fdivM64 _ _ => exact absurd hk (by simp [Instr.keepsPointers, Instr.replacesState])
  | fdivrM64 _ _ => exact absurd hk (by simp [Instr.keepsPointers, Instr.replacesState])
  | faddStiSt0 _ _ => exact absurd hk (by simp [Instr.keepsPointers, Instr.replacesState])
  | fmulStiSt0 _ _ => exact absurd hk (by simp [Instr.keepsPointers, Instr.replacesState])
  | reservedDCD0 _ _ => exact absurd hk (by simp [Instr.keepsPointers, Instr.replacesState])
  | fsubrStiSt0 _ _ => exact absurd hk (by simp [Instr.keepsPointers, Instr.replacesState])
  | fsubStiSt0 _ _ => exact absurd hk (by simp [Instr.keepsPointers, Instr.replacesState])
  | fdivrStiSt0 _ _ => exact absurd hk (by simp [Instr.keepsPointers, Instr.replacesState])
  | fdivStiSt0 _ _ => exact absurd hk (by simp [Instr.keepsPointers, Instr.replacesState])
  | fldM64 _ _ => exact absurd hk (by simp [Instr.keepsPointers, Instr.replacesState])
  | reservedDDm1 _ _ => exact absurd hk (by simp [Instr.keepsPointers, Instr.replacesState])
  | fstM64 _ _ => exact absurd hk (by simp [Instr.keepsPointers, Instr.replacesState])
  | fstpM64 _ _ => exact absurd hk (by simp [Instr.keepsPointers, Instr.replacesState])
  | frstor p m =>
    have h : execFrstor p m s = .next t := h
    unfold execFrstor at h
    refine waits rfl h fun h => ?_
    obtain ⟨hr, h⟩ := controlMem_next (s := s) h
    exact ⟨_, .restore p m _ rfl hr, h⟩
  | reservedDDm5 _ _ => exact absurd hk (by simp [Instr.keepsPointers, Instr.replacesState])
  | fnsave p m =>
    have h : execFnsave p m s = .next t := h
    unfold execFnsave fnsaveBody at h
    obtain ⟨hr, h⟩ := controlMem_next (s := s) h
    refine now rfl (.save p m _ (by simp) hr) ?_
    rw [h]
    rfl
  | fnstswM16 p m =>
    have h : execFnstswM16 p m s = .next t := h
    unfold execFnstswM16 fnstswBody at h
    obtain ⟨hr, h⟩ := controlMem_next (s := s) h
    exact now rfl (.storeSw p m _ (by simp) hr) h
  | ffree _ _ => exact absurd hk (by simp [Instr.keepsPointers, Instr.replacesState])
  | reservedDDC8 _ _ => exact absurd hk (by simp [Instr.keepsPointers, Instr.replacesState])
  | fstSti _ _ => exact absurd hk (by simp [Instr.keepsPointers, Instr.replacesState])
  | fstpSti _ _ => exact absurd hk (by simp [Instr.keepsPointers, Instr.replacesState])
  | fucom _ _ => exact absurd hk (by simp [Instr.keepsPointers, Instr.replacesState])
  | fucomp _ _ => exact absurd hk (by simp [Instr.keepsPointers, Instr.replacesState])
  | reservedDDF0 _ _ => exact absurd hk (by simp [Instr.keepsPointers, Instr.replacesState])
  | fiaddM16i _ _ => exact absurd hk (by simp [Instr.keepsPointers, Instr.replacesState])
  | fimulM16i _ _ => exact absurd hk (by simp [Instr.keepsPointers, Instr.replacesState])
  | ficomM16i _ _ => exact absurd hk (by simp [Instr.keepsPointers, Instr.replacesState])
  | ficompM16i _ _ => exact absurd hk (by simp [Instr.keepsPointers, Instr.replacesState])
  | fisubM16i _ _ => exact absurd hk (by simp [Instr.keepsPointers, Instr.replacesState])
  | fisubrM16i _ _ => exact absurd hk (by simp [Instr.keepsPointers, Instr.replacesState])
  | fidivM16i _ _ => exact absurd hk (by simp [Instr.keepsPointers, Instr.replacesState])
  | fidivrM16i _ _ => exact absurd hk (by simp [Instr.keepsPointers, Instr.replacesState])
  | faddp _ _ => exact absurd hk (by simp [Instr.keepsPointers, Instr.replacesState])
  | fmulp _ _ => exact absurd hk (by simp [Instr.keepsPointers, Instr.replacesState])
  | reservedDED0 _ _ => exact absurd hk (by simp [Instr.keepsPointers, Instr.replacesState])
  | reservedDED8 _ => exact absurd hk (by simp [Instr.keepsPointers, Instr.replacesState])
  | fcompp _ => exact absurd hk (by simp [Instr.keepsPointers, Instr.replacesState])
  | reservedDEDA _ _ => exact absurd hk (by simp [Instr.keepsPointers, Instr.replacesState])
  | reservedDEDC _ _ => exact absurd hk (by simp [Instr.keepsPointers, Instr.replacesState])
  | fsubrp _ _ => exact absurd hk (by simp [Instr.keepsPointers, Instr.replacesState])
  | fsubp _ _ => exact absurd hk (by simp [Instr.keepsPointers, Instr.replacesState])
  | fdivrp _ _ => exact absurd hk (by simp [Instr.keepsPointers, Instr.replacesState])
  | fdivp _ _ => exact absurd hk (by simp [Instr.keepsPointers, Instr.replacesState])
  | fildM16i _ _ => exact absurd hk (by simp [Instr.keepsPointers, Instr.replacesState])
  | reservedDFm1 _ _ => exact absurd hk (by simp [Instr.keepsPointers, Instr.replacesState])
  | fistM16i _ _ => exact absurd hk (by simp [Instr.keepsPointers, Instr.replacesState])
  | fistpM16i _ _ => exact absurd hk (by simp [Instr.keepsPointers, Instr.replacesState])
  | fbld _ _ => exact absurd hk (by simp [Instr.keepsPointers, Instr.replacesState])
  | fildM64i _ _ => exact absurd hk (by simp [Instr.keepsPointers, Instr.replacesState])
  | fbstp _ _ => exact absurd hk (by simp [Instr.keepsPointers, Instr.replacesState])
  | fistpM64i _ _ => exact absurd hk (by simp [Instr.keepsPointers, Instr.replacesState])
  | reservedDFC0 _ _ => exact absurd hk (by simp [Instr.keepsPointers, Instr.replacesState])
  | fnstswAx p =>
    have h : execFnstswAx p s = .next t := h
    unfold execFnstswAx fnstswAxBody at h
    exact now rfl (.storeAx p _ (by simp)) (control_next (s := s) h)
  | reservedDFE1 _ => exact absurd hk (by simp [Instr.keepsPointers, Instr.replacesState])
  | reservedDFE2 _ _ => exact absurd hk (by simp [Instr.keepsPointers, Instr.replacesState])
  | reservedDFE4 _ _ => exact absurd hk (by simp [Instr.keepsPointers, Instr.replacesState])
  | fucomip _ _ => exact absurd hk (by simp [Instr.keepsPointers, Instr.replacesState])
  | fcomip _ _ => exact absurd hk (by simp [Instr.keepsPointers, Instr.replacesState])
  | reservedDFF8 _ _ => exact absurd hk (by simp [Instr.keepsPointers, Instr.replacesState])
  | wait p =>
    have h : execWait p s = .next t := h
    unfold execWait at h
    exact waits rfl h fun h => ⟨_, .nothing p _ (by simp), control_next (s := s) h⟩
  | finit p =>
    have h : execFinit p s = .next t := h
    unfold execFinit fninitBody at h
    exact waits rfl h fun h => ⟨_, .init p _ (by simp), control_next (s := s) h⟩
  | fclex p =>
    have h : execFclex p s = .next t := h
    unfold execFclex fnclexBody at h
    exact waits rfl h fun h => ⟨_, .clear p _ (by simp), control_next (s := s) h⟩
  | fstcw p m =>
    have h : execFstcw p m s = .next t := h
    unfold execFstcw fnstcwBody at h
    refine waits rfl h fun h => ?_
    obtain ⟨hr, h⟩ := controlMem_next (s := s) h
    exact ⟨_, .storeCw p m _ (by simp) hr, h⟩
  | fstswM16 p m =>
    have h : execFstswM16 p m s = .next t := h
    unfold execFstswM16 fnstswBody at h
    refine waits rfl h fun h => ?_
    obtain ⟨hr, h⟩ := controlMem_next (s := s) h
    exact ⟨_, .storeSw p m _ (by simp) hr, h⟩
  | fstswAx p =>
    have h : execFstswAx p s = .next t := h
    unfold execFstswAx fnstswAxBody at h
    exact waits rfl h fun h => ⟨_, .storeAx p _ (by simp), control_next (s := s) h⟩
  | fstenv p m =>
    have h : execFstenv p m s = .next t := h
    unfold execFstenv fnstenvBody at h
    refine waits rfl h fun h => ?_
    obtain ⟨hr, h⟩ := controlMem_next (s := s) h
    exact ⟨_, .storeEnv p m _ (by simp) hr, h⟩
  | fsave p m =>
    have h : execFsave p m s = .next t := h
    unfold execFsave fnsaveBody at h
    refine waits rfl h fun h => ?_
    obtain ⟨hr, h⟩ := controlMem_next (s := s) h
    refine ⟨_, .save p m _ (by simp) hr, ?_⟩
    rw [h]
    rfl

end Sys2Proof.Machine
end

