-- ==== Sys2Proof/Laws/Memory.lean ====
section
/-! SUPPORT. Memory: every operation keeps the canonical form, a read after a write gives what was written, and a write
leaves every other byte. -/

namespace Sys2Proof.Machine

/-! ### One byte -/

/-- A write leaves every other byte, canonical form or not. -/
theorem memByte_memSet_ne (m : List Host.Cell) (a b : Nat) (v : Byte) (h : b ≠ a) :
    memByte (memSet m a v) b = memByte m b := by
  induction m with
  | nil => simp only [memSet]; split <;> simp [memByte, Ne.symm h]
  | cons c r ih =>
    obtain ⟨x, w⟩ := c
    simp only [memSet]
    split
    · split <;> simp [memByte, Ne.symm h]
    · split
      · subst_vars; split <;> simp [memByte, Ne.symm h]
      · simp [memByte, ih]

/-- Below its first address a canonical list reads as unlisted. -/
theorem memByte_below (m : List Host.Cell) (lo a : Nat) (hm : memWfFrom lo m = true) (h : a < lo) :
    memByte m a = unlistedByte := by
  induction m generalizing lo with
  | nil => rfl
  | cons c r ih =>
    obtain ⟨x, w⟩ := c
    simp only [memWfFrom, Bool.and_eq_true, decide_eq_true_eq] at hm
    simp only [memByte]
    rw [if_neg (by omega), ih (x + 1) hm.2 (by omega)]

/-- A read after a write to the same place gives the value written. -/
theorem memByte_memSet_eq (m : List Host.Cell) (lo a : Nat) (v : Byte) (hm : memWfFrom lo m = true) :
    memByte (memSet m a v) a = v := by
  induction m generalizing lo with
  | nil => simp only [memSet]; split <;> simp_all [memByte]
  | cons c r ih =>
    obtain ⟨x, w⟩ := c
    have hm' := hm
    simp only [memWfFrom, Bool.and_eq_true, decide_eq_true_eq] at hm
    simp only [memSet]
    split
    · split
      · rename_i hlt hv
        rw [memByte_below _ x a _ hlt, hv]
        simp only [memWfFrom, Bool.and_eq_true, decide_eq_true_eq]
        exact ⟨⟨⟨le_refl _, hm.1.1.2⟩, hm.1.2⟩, hm.2⟩
      · simp [memByte]
    · split
      · split
        · rename_i heq hv
          rw [memByte_below _ (x + 1) a hm.2 (by omega), hv]
        · simp [memByte]
      · simp only [memByte]
        rw [if_neg (by omega)]
        exact ih (x + 1) hm.2

/-- The form holds from any lower address. -/
theorem memWfFrom_mono (m : List Host.Cell) (lo lo' : Nat) (hm : memWfFrom lo m = true) (h : lo' ≤ lo) :
    memWfFrom lo' m = true := by
  cases m with
  | nil => rfl
  | cons c r =>
    obtain ⟨x, w⟩ := c
    simp only [memWfFrom, Bool.and_eq_true, decide_eq_true_eq] at hm ⊢
    exact ⟨⟨⟨by omega, hm.1.1.2⟩, hm.1.2⟩, hm.2⟩

/-- Storing one byte keeps the form. -/
theorem memWfFrom_memSet (m : List Host.Cell) (lo a : Nat) (v : Byte) (hm : memWfFrom lo m = true) (hlo : lo ≤ a)
    (ha : a < memEnd) : memWfFrom lo (memSet m a v) = true := by
  induction m generalizing lo with
  | nil =>
    simp only [memSet]
    split
    · rfl
    · simp_all [memWfFrom]
  | cons c r ih =>
    obtain ⟨x, w⟩ := c
    have hm' := hm
    simp only [memWfFrom, Bool.and_eq_true, decide_eq_true_eq, bne_iff_ne, ne_eq] at hm
    obtain ⟨⟨⟨h1, h2⟩, h3⟩, h4⟩ := hm
    simp only [memSet]
    split
    · split
      · exact hm'
      · simp only [memWfFrom, Bool.and_eq_true, decide_eq_true_eq, bne_iff_ne, ne_eq]
        exact ⟨⟨⟨hlo, ha⟩, ‹_›⟩, ⟨⟨by omega, h2⟩, h3⟩, h4⟩
    · split
      · split
        · exact memWfFrom_mono _ _ _ h4 (by omega)
        · subst_vars
          simp only [memWfFrom, Bool.and_eq_true, decide_eq_true_eq, bne_iff_ne, ne_eq]
          exact ⟨⟨⟨hlo, ha⟩, ‹_›⟩, h4⟩
      · simp only [memWfFrom, Bool.and_eq_true, decide_eq_true_eq, bne_iff_ne, ne_eq]
        exact ⟨⟨⟨h1, h2⟩, h3⟩, ih (x + 1) h4 (by omega)⟩

/-- Storing one byte keeps the canonical form. -/
theorem memWf_memSet (m : List Host.Cell) (a : Nat) (v : Byte) (hm : memWf m = true) (ha : a < memEnd) :
    memWf (memSet m a v) = true := memWfFrom_memSet m 0 a v hm (Nat.zero_le a) ha

/-- Canonical memories with the same bytes are equal data. -/
theorem memWfFrom_ext (m n : List Host.Cell) (lo : Nat) (hm : memWfFrom lo m = true) (hn : memWfFrom lo n = true)
    (h : ∀ a, memByte m a = memByte n a) : m = n := by
  induction m generalizing n lo with
  | nil =>
    cases n with
    | nil => rfl
    | cons c r =>
      obtain ⟨x, w⟩ := c
      simp only [memWfFrom, Bool.and_eq_true, bne_iff_ne, ne_eq] at hn
      have := h x
      simp only [memByte, if_true] at this
      exact absurd this.symm hn.1.2
  | cons c r ih =>
    obtain ⟨x, w⟩ := c
    have hm' := hm
    simp only [memWfFrom, Bool.and_eq_true, bne_iff_ne, ne_eq, decide_eq_true_eq] at hm
    cases n with
    | nil =>
      have := h x
      simp only [memByte, if_true] at this
      exact absurd this hm.1.2
    | cons d r' =>
      obtain ⟨y, u⟩ := d
      have hn' := hn
      simp only [memWfFrom, Bool.and_eq_true, bne_iff_ne, ne_eq, decide_eq_true_eq] at hn
      have hxy : x = y := by
        rcases Nat.lt_trichotomy x y with hlt | heq | hgt
        · have := h x
          simp only [memByte, if_true] at this
          rw [if_neg (by omega), memByte_below r' (y + 1) x hn.2 (by omega)] at this
          exact absurd this hm.1.2
        · exact heq
        · have := h y
          simp only [memByte, if_true] at this
          rw [if_neg (by omega), memByte_below r (x + 1) y hm.2 (by omega)] at this
          exact absurd this.symm hn.1.2
      subst hxy
      have hw : w = u := by have := h x; simpa [memByte] using this
      subst hw
      have hr : r = r' := by
        refine ih r' (x + 1) hm.2 hn.2 fun a => ?_
        by_cases hax : a < x + 1
        · rw [memByte_below r (x + 1) a hm.2 hax, memByte_below r' (x + 1) a hn.2 hax]
        · have := h a
          simpa [memByte, show x ≠ a by omega] using this
      rw [hr]

/-- Canonical memories with the same bytes are equal data. -/
theorem memWf_ext (m n : List Host.Cell) (hm : memWf m = true) (hn : memWf n = true)
    (h : ∀ a, memByte m a = memByte n a) : m = n := memWfFrom_ext m n 0 hm hn h

/-! ### Many bytes -/

/-- A wide write leaves every byte outside it. -/
theorem memByte_memWrite_outside (m : List Host.Cell) (a n v b : Nat) (h : b < a ∨ a + n ≤ b) :
    memByte (memWrite m a n v) b = memByte m b := by
  induction n generalizing m a v with
  | zero => rfl
  | succ n ih => rw [memWrite, ih _ _ _ (by omega), memByte_memSet_ne _ _ _ _ (by omega)]

/-- A wide write keeps the canonical form. -/
theorem memWf_memWrite (m : List Host.Cell) (a n v : Nat) (hm : memWf m = true) (h : a + n ≤ memEnd) :
    memWf (memWrite m a n v) = true := by
  induction n generalizing m a v with
  | zero => exact hm
  | succ n ih => exact ih _ _ _ (memWf_memSet m a _ hm (by omega)) (by omega)

/-- Byte `k` of a wide write. -/
theorem memByte_memWrite_inside (m : List Host.Cell) (a n v k : Nat) (hm : memWf m = true) (h : a + n ≤ memEnd)
    (hk : k < n) : memByte (memWrite m a n v) (a + k) = BitVec.ofNat 8 (v >>> (8 * k)) := by
  induction n generalizing m a v k with
  | zero => omega
  | succ n ih =>
    rw [memWrite]
    cases k with
    | zero =>
      rw [memByte_memWrite_outside _ _ _ _ _ (by omega)]
      simpa using memByte_memSet_eq m 0 a _ hm
    | succ k =>
      rw [show a + (k + 1) = a + 1 + k by omega, ih _ _ _ _ (memWf_memSet m a _ hm (by omega)) (by omega) (by omega)]
      rw [show 8 * (k + 1) = 8 + 8 * k by omega, Nat.shiftRight_add, Nat.shiftRight_eq_div_pow v 8]

/-- A wide read depends on the bytes it reads. -/
theorem memRead_congr (m m' : List Host.Cell) (a n : Nat) (h : ∀ k, k < n → memByte m (a + k) = memByte m' (a + k)) :
    memRead m a n = memRead m' a n := by
  induction n generalizing a with
  | zero => rfl
  | succ n ih =>
    have h0 := h 0 (by omega)
    rw [Nat.add_zero] at h0
    rw [memRead, memRead, h0, ih (a + 1) fun k hk => by have := h (k + 1) (by omega); rwa [show a + 1 + k = a + (k + 1) by omega]]

/-- A wide read of what a wide write stored. -/
theorem memRead_memWrite (m : List Host.Cell) (a n v : Nat) (hm : memWf m = true) (h : a + n ≤ memEnd) :
    memRead (memWrite m a n v) a n = v % 256 ^ n := by
  induction n generalizing m a v with
  | zero => simp [memRead, Nat.mod_one]
  | succ n ih =>
    have hs := memWf_memSet m a (BitVec.ofNat 8 v) hm (by omega)
    rw [memRead, memWrite, ih _ _ _ hs (by omega), memByte_memWrite_outside _ _ _ _ _ (by omega),
      memByte_memSet_eq m 0 a _ hm, BitVec.toNat_ofNat, show 256 ^ (n + 1) = 256 * 256 ^ n from pow_succ' 256 n,
      Nat.mod_mul]

/-- A wide read is below its size. -/
theorem memRead_lt (m : List Host.Cell) (a n : Nat) : memRead m a n < 256 ^ n := by
  induction n generalizing a with
  | zero => simp [memRead]
  | succ n ih =>
    have := ih (a + 1)
    have hb := (memByte m a).isLt
    rw [memRead, pow_succ']
    omega

/-- Byte `k` of a wide read. -/
theorem memRead_shiftRight (m : List Host.Cell) (a n k : Nat) (hk : k < n) :
    BitVec.ofNat 8 (memRead m a n >>> (8 * k)) = memByte m (a + k) := by
  induction n generalizing a k with
  | zero => omega
  | succ n ih =>
    have hb := (memByte m a).isLt
    rw [memRead]
    cases k with
    | zero => apply BitVec.eq_of_toNat_eq; simp; omega
    | succ k =>
      rw [show 8 * (k + 1) = 8 + 8 * k by omega, Nat.shiftRight_add, show a + (k + 1) = a + 1 + k by omega,
        ← ih (a + 1) k (by omega)]
      congr 2
      rw [Nat.shiftRight_eq_div_pow]
      omega

/-! ### Bytes placed for a fetch -/

/-- Placing bytes keeps the canonical form. -/
theorem memWf_memPlace (m : List Host.Cell) (a : Nat) (bs : List Byte) (hm : memWf m = true) :
    memWf (memPlace m a bs) = true := by
  induction bs generalizing m a with
  | nil => exact hm
  | cons b bs ih =>
    rw [memPlace]
    split
    · exact ih _ _ (memWf_memSet m a b hm ‹_›)
    · exact hm

/-- The bytes before the place stay. -/
theorem memByte_memPlace_below (m : List Host.Cell) (a b : Nat) (bs : List Byte) (h : b < a) :
    memByte (memPlace m a bs) b = memByte m b := by
  induction bs generalizing m a with
  | nil => rfl
  | cons c bs ih =>
    rw [memPlace]
    split
    · rw [ih _ _ (by omega), memByte_memSet_ne _ _ _ _ (by omega)]
    · rfl

/-- The bytes placed are what the fetch reads. -/
theorem fetchFrom_memPlace (m : List Host.Cell) (a : Nat) (bs : List Byte) (hm : memWf m = true)
    (h : a + bs.length ≤ memEnd) : fetchFrom (memPlace m a bs) a bs.length = bs := by
  induction bs generalizing m a with
  | nil => rfl
  | cons b bs ih =>
    rw [List.length_cons] at h
    have ha : a < memEnd := by omega
    rw [memPlace, if_pos ha, List.length_cons, fetchFrom, if_pos ha, memByte_memPlace_below _ _ _ _ (by omega),
      memByte_memSet_eq m 0 a b hm, ih _ _ (memWf_memSet m a b hm ha) (by omega)]

/-- The fetched bytes, one by one. -/
theorem fetchFrom_getElem? (m : List Host.Cell) (a n k : Nat) (hk : k < n) (h : a + k < memEnd) :
    (fetchFrom m a n)[k]? = some (memByte m (a + k)) := by
  induction n generalizing a k with
  | zero => omega
  | succ n ih =>
    rw [fetchFrom, if_pos (by omega)]
    cases k with
    | zero => simp
    | succ k => rw [List.getElem?_cons_succ, ih (a + 1) k (by omega) (by omega), show a + 1 + k = a + (k + 1) by omega]

/-! ### The same of a state -/

/-- The reset state's memory is canonical. -/
theorem memWf_reset : memWf State.reset.mem = true := rfl

/-- A store keeps the canonical form. -/
theorem memWf_store (s : State) (a n v : Nat) (hm : memWf s.mem = true) (h : a + n ≤ memEnd) :
    memWf (s.store a n v).mem = true := memWf_memWrite s.mem a n v hm h

/-- A store leaves every byte outside it. -/
theorem State.byte_store_outside (s : State) (a n v b : Nat) (h : b < a ∨ a + n ≤ b) :
    (s.store a n v).byte b = s.byte b := memByte_memWrite_outside s.mem a n v b h

/-- Byte `k` of a store. -/
theorem State.byte_store_inside (s : State) (a n v k : Nat) (hm : memWf s.mem = true) (h : a + n ≤ memEnd) (hk : k < n) :
    (s.store a n v).byte (a + k) = BitVec.ofNat 8 (v >>> (8 * k)) := memByte_memWrite_inside s.mem a n v k hm h hk

end Sys2Proof.Machine
end

