-- ==== Sys2Proof/Laws/Frames.lean ====
section
/-! SUPPORT. What a run of updates leaves: the host and the pointers, the bytes outside its store, the registers outside its
list, the exception flags outside its conditions; and that it keeps the invariant. -/

namespace Sys2Proof.Machine

variable {A : Allowed} {s t u : State}

/-! ### The host, the pointers and the control word -/

/-- The parts of State that no update writes. -/
structure Kept (s t : State) : Prop where
  cw : t.cw = s.cw
  gprs : t.gprs = s.gprs
  segs : t.segs = s.segs
  ne : t.ne = s.ne
  mode : t.mode = s.mode
  code32 : t.code32 = s.code32
  ignne : t.ignne = s.ignne
  params : t.params = s.params
  fip : t.fip = s.fip
  fdp : t.fdp = s.fdp
  fop : t.fop = s.fop
  eip : t.eip = s.eip
  event : t.event = s.event
  draws : t.draws = s.draws

theorem Kept.refl : Kept s s := ⟨rfl, rfl, rfl, rfl, rfl, rfl, rfl, rfl, rfl, rfl, rfl, rfl, rfl, rfl⟩

theorem Kept.trans (h : Kept s t) (g : Kept t u) : Kept s u :=
  ⟨g.cw.trans h.cw, g.gprs.trans h.gprs, g.segs.trans h.segs, g.ne.trans h.ne, g.mode.trans h.mode,
    g.code32.trans h.code32, g.ignne.trans h.ignne, g.params.trans h.params, g.fip.trans h.fip, g.fdp.trans h.fdp,
    g.fop.trans h.fop, g.eip.trans h.eip, g.event.trans h.event, g.draws.trans h.draws⟩

theorem Update.kept (h : Update A s t) : Kept s t := by
  cases h
  case signal => constructor <;> simp
  all_goals exact ⟨rfl, rfl, rfl, rfl, rfl, rfl, rfl, rfl, rfl, rfl, rfl, rfl, rfl, rfl⟩

theorem Runs.kept (h : Runs A s t) : Kept s t :=
  Runs.rel (fun _ => Kept.refl) (fun _ _ _ => Kept.trans) (fun _ _ => Update.kept) h

/-- A run that may not write EFLAGS leaves it. -/
theorem Runs.eflags_eq (h : Runs A s t) (he : A.eflags = false) : t.eflags = s.eflags := by
  refine Runs.rel (R := fun s t => t.eflags = s.eflags) (fun _ => rfl) (fun _ _ _ h h' => h'.trans h) ?_ h
  intro u v h
  cases h
  case eflags h => exact absurd (he.symm.trans h) (by simp)
  case signal => simp
  all_goals rfl

/-! ### Memory -/

/-- Every byte outside the bytes a run may store is as before. -/
theorem Runs.byte_outside (h : Runs A s t) :
    ∀ b, (∀ a n, A.stored = some (a, n) → b < a ∨ a + n ≤ b) → t.byte b = s.byte b := by
  refine Runs.rel (R := fun s t => ∀ b, (∀ a n, A.stored = some (a, n) → b < a ∨ a + n ≤ b) → t.byte b = s.byte b)
    (fun _ _ _ => rfl) (fun u v w h g b hb => (g b hb).trans (h b hb)) ?_ h
  intro u v h b hb
  cases h
  case store a n v h _ => exact State.byte_store_outside _ _ _ _ _ (hb _ _ h)
  case signal => simp [State.byte]
  all_goals rfl

/-! ### The register stack -/

/-- The registers outside the run's list stay, and TOP stays or takes a value of its list. -/
structure StackWithin (A : Allowed) (s t : State) : Prop where
  others : OthersKept A.regs s t
  top : t.sw.top = s.sw.top ∨ t.sw.top ∈ A.tops

theorem StackWithin.trans (h : StackWithin A s t) (g : StackWithin A t u) : StackWithin A s u where
  others k hk := ⟨(g.others k hk).1.trans (h.others k hk).1, (g.others k hk).2.trans (h.others k hk).2⟩
  top := g.top.elim (fun e => e ▸ h.top) .inr

/-- A register is unchanged where another one is written. -/
theorem get_set_ne {α : Type} {v : Vector α 8} {k j : BitVec 3} {x : α} (h : k ≠ j) :
    (v.set k.toFin x).get j.toFin = v.get j.toFin := by
  have : (k.toFin : Fin 8).val ≠ (j.toFin : Fin 8).val := fun e => h (BitVec.eq_of_toFin_eq (Fin.ext e))
  simp only [Vector.get_eq_getElem, Vector.getElem_set, this, if_false]

theorem Update.stack (h : Update A s t) : StackWithin A s t := by
  cases h
  case signal => exact ⟨fun k _ => by simp, .inl (by simp)⟩
  case write k v h =>
    exact ⟨fun j hj => have e : k ≠ j := fun e => hj (e ▸ h); ⟨get_set_ne e, get_set_ne e⟩, .inl rfl⟩
  case empty k h =>
    exact ⟨fun j hj => have e : k ≠ j := fun e => hj (e ▸ h); ⟨rfl, get_set_ne e⟩, .inl rfl⟩
  case top x h => exact ⟨fun _ _ => ⟨rfl, rfl⟩, .inr h⟩
  all_goals exact ⟨fun _ _ => ⟨rfl, rfl⟩, .inl rfl⟩

theorem Runs.stack (h : Runs A s t) : StackWithin A s t :=
  Runs.rel (fun _ => ⟨fun _ _ => ⟨rfl, rfl⟩, .inl rfl⟩) (fun _ _ _ => StackWithin.trans) (fun _ _ => Update.stack) h

/-! ### The exception flags -/

/-- The exception flags of conditions outside the run's list stay, and those that were 1 stay 1. -/
structure FlagsWithin (A : Allowed) (s t : State) : Prop where
  others : ∀ b, b < 6 → b ∉ A.conds.map Cond.maskBit → t.sw.exceptions[b]? = s.sw.exceptions[b]?
  sf : .isUnder ∉ A.conds → .isOver ∉ A.conds → t.sw.sf = s.sw.sf
  sticky : ∀ b : Nat, s.sw.exceptions[b]? = some true → t.sw.exceptions[b]? = some true

theorem FlagsWithin.refl : FlagsWithin A s s := ⟨fun _ _ _ => rfl, fun _ _ => rfl, fun _ => id⟩

theorem FlagsWithin.trans (h : FlagsWithin A s t) (g : FlagsWithin A t u) : FlagsWithin A s u where
  others b hb hn := (g.others b hb hn).trans (h.others b hb hn)
  sf hu ho := (g.sf hu ho).trans (h.sf hu ho)
  sticky b hb := g.sticky b (h.sticky b hb)

/-- The flags a condition sets, by their places. -/
theorem StatusWord.setFlag_exceptions (w : StatusWord) (c : Cond) (b : Nat) :
    (w.setFlag c).exceptions[b]? =
      if b = c.maskBit ∨ (b = 6 ∧ (c = .isUnder ∨ c = .isOver)) then some true else w.exceptions[b]? := by
  match b with
  | 0 | 1 | 2 | 3 | 4 | 5 | 6 => cases c <;> rfl
  | n + 7 =>
    have : n + 7 ≠ c.maskBit := by cases c <;> simp [Cond.maskBit]
    simp [this, StatusWord.exceptions]

theorem State.signal_exceptions (s : State) (c : Cond) : (s.signal c).sw.exceptions = (s.sw.setFlag c).exceptions := by
  rw [State.signal_sw]; split <;> rfl

theorem Update.flags (h : Update A s t) : FlagsWithin A s t := by
  cases h
  case signal c h =>
    refine ⟨fun b hb hn => ?_, fun h1 h2 => ?_, fun b hb => ?_⟩
    · have hn : b ≠ c.maskBit := fun e => hn (e ▸ List.mem_map_of_mem h)
      rw [State.signal_exceptions, StatusWord.setFlag_exceptions, if_neg]
      rintro (e | e)
      · exact hn e
      · omega
    · rw [State.signal_sw]
      cases c <;> split <;> first | rfl | contradiction
    · rw [State.signal_exceptions, StatusWord.setFlag_exceptions, hb, ite_self]
  all_goals exact ⟨fun _ _ _ => rfl, fun _ _ => rfl, fun _ => id⟩

theorem Runs.flags (h : Runs A s t) : FlagsWithin A s t :=
  Runs.rel (fun _ => FlagsWithin.refl) (fun _ _ _ => FlagsWithin.trans) (fun _ _ => Update.flags) h

/-! ### The invariant -/

theorem tags_set {r : Vector Ext 8} {g : Vector Tag 8} (h : ∀ k : Fin 8, g.get k = .empty ∨ g.get k = tagOf (r.get k))
    (j : Fin 8) (v : Ext) (k : Fin 8) :
    (g.set j (tagOf v)).get k = .empty ∨ (g.set j (tagOf v)).get k = tagOf ((r.set j v).get k) := by
  simp only [Vector.get_eq_getElem, Vector.getElem_set]
  split
  · exact .inr rfl
  · exact h k

theorem tags_empty {r : Vector Ext 8} {g : Vector Tag 8} (h : ∀ k : Fin 8, g.get k = .empty ∨ g.get k = tagOf (r.get k))
    (j : Fin 8) (k : Fin 8) : (g.set j .empty).get k = .empty ∨ (g.set j .empty).get k = tagOf (r.get k) := by
  simp only [Vector.get_eq_getElem, Vector.getElem_set]
  split
  · exact .inl rfl
  · exact h k

/-- ES stays the summary when a condition is signalled (R33, R405). -/
theorem State.signal_es (s : State) (c : Cond) (h : s.sw.es = summary s.sw s.cw) :
    (s.signal c).sw.es = summary (s.signal c).sw (s.signal c).cw := by
  rw [State.signal_sw, State.signal_cw]
  unfold State.masked
  split
  · rename_i hc
    cases c <;> simp only [StatusWord.setFlag, Cond.maskBit, summary] at * <;> rw [h, hc] <;> simp
  · rename_i hc
    cases c <;> simp only [StatusWord.setFlag, Cond.maskBit, summary, Bool.not_eq_true] at * <;> rw [hc] <;> simp

theorem Update.inv (h : Update A s t) (hi : s.Inv) : t.Inv := by
  obtain ⟨hm, ht, he, hb, hf⟩ := hi
  cases h
  case signal c h =>
    refine ⟨by simpa using hm, by simpa using ht, State.signal_es s c he, ?_, ?_⟩
    · rw [State.signal_sw]
      split
      · cases c <;> exact hb
      · rfl
    · unfold State.signal
      split
      · cases c <;> exact hf
      · exact fun _ => rfl
  case write k v h => exact ⟨hm, tags_set ht k.toFin v, he, hb, hf⟩
  case empty k h => exact ⟨hm, tags_empty ht k.toFin, he, hb, hf⟩
  case store h hb' => exact ⟨memWf_store _ _ _ _ hm hb', ht, he, hb, hf⟩
  all_goals exact ⟨hm, ht, he, hb, hf⟩

/-- A run keeps the invariant. -/
theorem Runs.inv (h : Runs A s t) (hi : s.Inv) : t.Inv := Runs.keeps (fun _ _ => Update.inv) h hi

/-- Recomputing ES and B establishes their part of the invariant (R33, R34). -/
theorem State.refreshEs_inv (s : State) (hm : memWf s.mem = true)
    (ht : ∀ k : Fin 8, s.tags.get k = .empty ∨ s.tags.get k = tagOf (s.regs.get k)) : s.refreshEs.Inv := by
  unfold State.refreshEs
  split
  · rename_i h
    exact ⟨hm, ht, h.symm, rfl, fun _ => rfl⟩
  · rename_i h
    exact ⟨hm, ht, (Bool.not_eq_true _ ▸ h).symm, rfl, nofun⟩

end Sys2Proof.Machine
end

