-- ==== Sys2Proof/Laws/Numerics.lean ====
section
/-! SUPPORT. What the constraint of R331 says of the exponents of NUMERICS results: none of the transcendental instructions
but FYL2X overflows (the blank #O cells of Table 31-23, R425). -/

namespace Sys2Proof.Machine

/-! ### A result near a function value -/

theorem roundedOf_exponent (a : Approx) : (roundedOf a).exponent = 63 + a.exp := by
  have h : (2 ^ 63 + a.frac.toNat).log2 = 63 := by
    have := a.frac.isLt
    rw [Nat.log2_eq_iff (by omega)]
    omega
  unfold Rounded.exponent roundedOf
  simp only [h]
  rfl

theorem le_abs_approxReal (a : Approx) : (2 : ℝ) ^ (roundedOf a).exponent ≤ |approxReal a| := by
  rw [roundedOf_exponent, zpow_add₀ (by norm_num)]
  unfold approxReal
  rw [mul_assoc, abs_mul]
  have : |(if a.neg = true then (-1 : ℝ) else 1)| = 1 := by split <;> norm_num
  rw [this, one_mul, abs_of_nonneg (by positivity)]
  gcongr
  push_cast
  norm_num

/-- An accurate result is larger than the function value by less than one part in 2^60. -/
theorem abs_approxReal_lt {g : Generation} {rc : RoundMode} {f : ℝ} {a : Approx} (hf : f ≠ 0) (h : Accurate g rc f a) :
    |approxReal a| < |f| * (1 + 2 ^ (-60 : ℤ)) := by
  have h0 : 0 < |f| := abs_pos.mpr hf
  have lo : (2 : ℝ) ^ Int.log 2 |f| ≤ |f| := by
    have := Int.zpow_log_le_self (b := 2) (by norm_num) h0; exact_mod_cast this
  have hi : |f| < (2 : ℝ) ^ (Int.log 2 |f| + 1) := by
    have := Int.lt_zpow_succ_log_self (b := 2) (by norm_num) |f|; exact_mod_cast this
  have c := h.close _ lo hi
  have p : (0 : ℝ) < 2 ^ (Int.log 2 |f| - 63) := by positivity
  have b : |f - approxReal a| / 2 ^ (Int.log 2 |f| - 63) ≤ 9 / 2 := by
    unfold WithinUlps at c
    split at c
    · exact c
    all_goals split at c <;> linarith
  rw [div_le_iff₀ p, zpow_sub₀ (by norm_num)] at b
  have t : |approxReal a| ≤ |f| + |f - approxReal a| := by
    have := abs_sub_abs_le_abs_sub (approxReal a) f
    rw [abs_sub_comm] at this
    linarith
  norm_num at b ⊢
  linarith

/-- The exponent of an accurate result of a function value below `2^k`. -/
theorem exponent_le {g : Generation} {rc : RoundMode} {f : ℝ} {a : Approx} (hf : f ≠ 0) (h : Accurate g rc f a) {k : ℤ}
    (hk : |f| * (1 + 2 ^ (-60 : ℤ)) ≤ 2 ^ (k + 1)) : (roundedOf a).exponent ≤ k := by
  have := (le_abs_approxReal a).trans_lt ((abs_approxReal_lt hf h).trans_le hk)
  have := (zpow_lt_zpow_iff_right₀ (by norm_num : (1 : ℝ) < 2)).mp this
  omega

/-! ### The functions are bounded -/

theorem abs_trueSin_le (x : ℝ) : |trueSin x| ≤ 1 := by
  unfold trueSin
  repeat' split
  all_goals simp only [abs_neg, Real.abs_sin_le_one, Real.abs_cos_le_one]

theorem abs_trueCos_le (x : ℝ) : |trueCos x| ≤ 1 := by
  unfold trueCos
  repeat' split
  all_goals simp only [abs_neg, Real.abs_sin_le_one, Real.abs_cos_le_one]

theorem abs_trueAtan2_le (y x : ℝ) : |trueAtan2 y x| ≤ Real.pi := Complex.abs_arg_le_pi _

theorem abs_trueExp2m1_le {x : ℝ} (h : |x| ≤ 1) : |trueExp2m1 x| ≤ 1 := by
  obtain ⟨lo, hi⟩ := abs_le.mp h
  have h1 : (2 : ℝ) ^ x ≤ 2 ^ (1 : ℝ) := Real.rpow_le_rpow_of_exponent_le (by norm_num) hi
  have h0 : (0 : ℝ) < 2 ^ x := by positivity
  rw [Real.rpow_one] at h1
  unfold trueExp2m1
  rw [abs_le]; constructor <;> linarith

/-- A reduced argument that is not the operand itself is no smaller than 2^-65. -/
theorem abs_reduced_ge {v : Ext} (h : isFiniteNonzero v = true) (hk : reduceSteps (realOf v) ≠ 0) :
    (2 : ℝ) ^ (-65 : ℤ) ≤ |reduced (realOf v)| := by
  obtain ⟨h0, h64⟩ := isFiniteNonzero_value h
  have big : pi66Real / 4 ≤ |realOf v| := by
    by_contra c
    exact hk (by unfold reduceSteps; rw [if_pos (not_le.mp c)])
  have val : |realOf v| = (valOf v).n * (2 : ℝ) ^ (valOf v).k := by
    rw [realOf_eq, mul_assoc, abs_mul, abs_of_nonneg (by positivity : (0 : ℝ) ≤ (valOf v).n * 2 ^ (valOf v).k)]
    split <;> simp
  have ke : -65 ≤ (valOf v).k := by
    by_contra c
    have : (2 : ℝ) ^ (valOf v).k ≤ 2 ^ (-65 : ℤ) := zpow_le_zpow_right₀ (by norm_num) (by omega)
    have n64 : ((valOf v).n : ℝ) ≤ 2 ^ 64 := by exact_mod_cast h64.le
    have : ((valOf v).n : ℝ) * 2 ^ (valOf v).k ≤ 2 ^ 64 * 2 ^ (-65 : ℤ) := by gcongr
    rw [val] at big
    unfold pi66Real pi66 at big
    norm_num at this big
    linarith
  obtain ⟨z, hz⟩ : ∃ z : ℤ, reduced (realOf v) = z * (2 : ℝ) ^ (-65 : ℤ) := by
    refine ⟨(if (valOf v).neg then -1 else 1) * (valOf v).n * 2 ^ ((valOf v).k + 65).toNat -
      reduceSteps (realOf v) * pi66, ?_⟩
    have e : (2 : ℝ) ^ (valOf v).k = 2 ^ ((valOf v).k + 65).toNat * 2 ^ (-65 : ℤ) := by
      rw [← zpow_natCast, ← zpow_add₀ (by norm_num)]; congr 1; omega
    unfold reduced
    generalize reduceSteps (realOf v) = j
    rw [realOf_eq, e]
    unfold pi66Real
    push_cast
    split <;> norm_num <;> ring
  have z0 : z ≠ 0 := by
    rintro rfl
    exact reduced_ne_zero h (by simpa using hz)
  rw [hz, abs_mul, abs_of_pos (by positivity : (0 : ℝ) < 2 ^ (-65 : ℤ))]
  have : (1 : ℝ) ≤ |(z : ℝ)| := by exact_mod_cast Int.one_le_abs z0
  have p : (0 : ℝ) < 2 ^ (-65 : ℤ) := by positivity
  nlinarith

theorem abs_le_abs_tan {t : ℝ} (h : |t| < Real.pi / 2) : |t| ≤ |Real.tan t| := by
  rcases le_total 0 t with p | p
  · rw [abs_of_nonneg p] at h ⊢
    exact (Real.le_tan p h).trans (le_abs_self _)
  · rw [abs_of_nonpos p] at h ⊢
    have := Real.le_tan (x := -t) (by linarith) h
    rw [Real.tan_neg] at this
    exact this.trans (neg_le_abs _)

theorem abs_trueTan_le {v : Ext} (h : isFiniteNonzero v = true) : |trueTan (realOf v)| ≤ 2 ^ (65 : ℤ) := by
  have lt := abs_reduced_lt_half_pi (realOf v)
  unfold trueTan
  split
  · have b := abs_reduced_le (realOf v)
    have p := pi66Real_lt_pi
    have : |Real.tan (reduced (realOf v))| ≤ 1 := by
      obtain ⟨lo, hi⟩ := abs_le.mp b
      have q := Real.pi_pos
      rw [abs_le, ← Real.tan_pi_div_four, ← Real.tan_neg]
      have m := Real.strictMonoOn_tan.monotoneOn
      constructor
      · exact m ⟨by linarith, by linarith⟩ ⟨by linarith, by linarith⟩ (by linarith)
      · exact m ⟨by linarith, by linarith⟩ ⟨by linarith, by linarith⟩ (by linarith)
    exact this.trans (by norm_num)
  · rename_i hk
    have ge := (abs_reduced_ge h (by rintro e; simp [e] at hk)).trans (abs_le_abs_tan lt)
    rw [abs_neg, abs_div, abs_one, div_le_iff₀ (lt_of_lt_of_le (by positivity) ge)]
    norm_num at ge ⊢
    linarith

/-! ### No overflow -/

variable {P : Params} {rc : RoundMode}

theorem sin_exponent {v : Ext} (h : InTrigRange v) : (roundedOf ((numerics P).sin (argOf v) rc)).exponent ≤ 0 := by
  refine exponent_le (trueSin_ne_zero h) ((numerics_conform P).sin.accurate v rc h) ?_
  have := abs_trueSin_le (realOf v)
  norm_num
  linarith

theorem cos_exponent {v : Ext} (h : InTrigRange v) : (roundedOf ((numerics P).cos (argOf v) rc)).exponent ≤ 0 := by
  refine exponent_le (trueCos_ne_zero h) ((numerics_conform P).cos.accurate v rc h) ?_
  have := abs_trueCos_le (realOf v)
  norm_num
  linarith

theorem tan_exponent {v : Ext} (h : InTrigRange v) : (roundedOf ((numerics P).tan (argOf v) rc)).exponent ≤ 65 := by
  refine exponent_le (trueTan_ne_zero h) ((numerics_conform P).tan.accurate v rc h) ?_
  have := abs_trueTan_le h.1
  norm_num at this ⊢
  linarith

theorem atan2_exponent {y x : Ext} (hy : isFiniteNonzero y = true) (hx : isFiniteNonzero x = true) :
    (roundedOf ((numerics P).atan2 (argOf y) (argOf x) rc)).exponent ≤ 2 := by
  refine exponent_le (trueAtan2_ne_zero (realOf_ne_zero hy)) ((numerics_conform P).atan2.accurate y x rc hy hx) ?_
  have := abs_trueAtan2_le (realOf y) (realOf x)
  have := Real.pi_lt_four
  norm_num
  linarith

theorem exp2m1_exponent {v : Ext} (h : InExpRange v) : (roundedOf ((numerics P).exp2m1 (argOf v) rc)).exponent ≤ 0 := by
  refine exponent_le (trueExp2m1_ne_zero (realOf_ne_zero h.1)) ((numerics_conform P).exp2m1.accurate v rc h) ?_
  have := abs_trueExp2m1_le h.2
  norm_num
  linarith

/-! ### FYL2XP1 on the documented domain -/

/-- The integer of a number at an exponent no greater than its own. -/
theorem toRat_at (a : Num) {k : ℤ} (h : k ≤ a.k) :
    a.toRat = ((if a.neg then -1 else 1) * ((a.n <<< (a.k - k).toNat : Nat) : ℤ) : ℤ) * (2 : ℚ) ^ k := by
  have e : (2 : ℚ) ^ a.k = 2 ^ (a.k - k).toNat * 2 ^ k := by
    rw [← zpow_natCast, ← zpow_add₀ (by norm_num)]; congr 1; omega
  unfold Num.toRat
  rw [e, Nat.shiftLeft_eq]
  push_cast
  split <;> simp [mul_assoc]

theorem compare_scaled (x y : ℤ) {p : ℚ} (hp : 0 < p) : compare ((x : ℚ) * p) (y * p) = compare x y := by
  rcases lt_trichotomy x y with h | h | h
  · rw [compare_lt_iff_lt.mpr h, compare_lt_iff_lt]
    exact mul_lt_mul_of_pos_right (by exact_mod_cast h) hp
  · rw [h, compare_eq_iff_eq.mpr rfl, compare_eq_iff_eq.mpr rfl]
  · rw [compare_gt_iff_gt.mpr h, compare_gt_iff_gt]
    exact mul_lt_mul_of_pos_right (by exact_mod_cast h) hp

/-- The comparison of numbers is that of their values. -/
theorem compareNum_eq (a b : Num) : compareNum a b = compare a.toRat b.toRat := by
  rw [toRat_at a (min_le_left a.k b.k), toRat_at b (min_le_right a.k b.k), compare_scaled _ _ (by positivity)]
  rfl

theorem cmpExt_eq {a b : Ext} (ha : isInf a = false) (hb : isInf b = false) :
    cmpExt a b = relationOf (compare (ratOf a) (ratOf b)) := by
  unfold cmpExt ratOf
  simp only [ha, hb, Bool.false_eq_true, if_false, compareNum_eq]

theorem documented_value : ratOf documentedXp1High < 293 / 1000 ∧ -(293 / 1000) < ratOf (negate documentedXp1High) := by
  have h : valOf documentedXp1High = { neg := false, n := 0x95F619980C4336F7, k := -65 } := by decide
  have h' : valOf (negate documentedXp1High) = { neg := true, n := 0x95F619980C4336F7, k := -65 } := by decide
  unfold ratOf Num.toRat
  rw [h, h']
  norm_num

theorem isInf_finite {v : Ext} (h : isFiniteNonzero v = true) : isInf v = false := by
  unfold isFiniteNonzero isDenormal at h
  unfold isInf
  cases hc : classOf v <;> simp_all

theorem relation_ne_less {a b : ℚ} : relationOf (compare a b) ≠ .less ↔ b ≤ a := by
  rcases lt_trichotomy a b with h | h | h
  · simp [compare_lt_iff_lt.mpr h, relationOf, h]
  · simp [h, relationOf]
  · simp [compare_gt_iff_gt.mpr h, relationOf, h.le]

theorem relation_ne_greater {a b : ℚ} : relationOf (compare a b) ≠ .greater ↔ a ≤ b := by
  rcases lt_trichotomy a b with h | h | h
  · simp [compare_lt_iff_lt.mpr h, relationOf, h.le]
  · simp [h, relationOf]
  · simp [compare_gt_iff_gt.mpr h, relationOf, h]

/-- An operand in a domain no larger than the documented one is below 0.293 in magnitude. -/
theorem abs_realOf_lt {x : Ext} (hP : P.xp1Documented = true) (hx : InXp1Range P x) : |realOf x| < 293 / 1000 := by
  obtain ⟨hf, hd, -⟩ := hx
  have xi := isInf_finite hf
  obtain ⟨dh, dl⟩ := documented_value
  have di : isInf documentedXp1High = false := by decide
  have di' : isInf (negate documentedXp1High) = false := by decide
  unfold inXp1Domain at hd
  unfold Params.xp1Documented at hP
  simp only [xi, Bool.not_false, Bool.true_and, Bool.and_eq_true, bne_iff_ne] at hd hP
  replace hd := And.intro hd.1.2 hd.2
  have lo : -(293 / 1000) < ratOf x := by
    rcases hl : isInf P.xp1Low with _ | _
    · rw [cmpExt_eq hl di', relation_ne_less] at hP
      rw [cmpExt_eq xi hl, relation_ne_less] at hd
      linarith [hP.1, hd.1]
    · exfalso
      have a := hd.1
      have b := hP.1
      unfold cmpExt at a b
      simp only [xi, hl, di', Bool.false_eq_true, if_false, if_true, Bool.false_and] at a b
      cases hs : signOf P.xp1Low <;> simp [hs] at a b
  have hi : ratOf x < 293 / 1000 := by
    rcases hl : isInf P.xp1High with _ | _
    · rw [cmpExt_eq hl di, relation_ne_greater] at hP
      rw [cmpExt_eq xi hl, relation_ne_greater] at hd
      linarith [hP.2, hd.2]
    · exfalso
      have a := hd.2
      have b := hP.2
      unfold cmpExt at a b
      simp only [xi, hl, di, Bool.false_eq_true, if_false, if_true, Bool.false_and] at a b
      cases hs : signOf P.xp1High <;> simp [hs] at a b
  have lo' : ((-(293 / 1000) : ℚ) : ℝ) < realOf x := Rat.cast_lt.mpr lo
  have hi' : realOf x < ((293 / 1000 : ℚ) : ℝ) := Rat.cast_lt.mpr hi
  push_cast at lo' hi'
  exact abs_lt.mpr ⟨lo', hi'⟩

theorem abs_logb_le {x : ℝ} (h : |x| < 293 / 1000) : |Real.logb 2 (1 + x)| ≤ 3 / 5 := by
  obtain ⟨lo, hi⟩ := abs_lt.mp h
  have p : 0 < 1 + x := by linarith
  have five : (5 : ℝ) * Real.logb 2 (1 + x) = Real.logb 2 ((1 + x) ^ 5) := by
    rw [Real.logb_pow]; norm_num
  have up : Real.logb 2 ((1 + x) ^ 5) ≤ 3 := by
    rw [Real.logb_le_iff_le_rpow (by norm_num) (by positivity)]
    have : (1 + x) ^ 5 ≤ (1293 / 1000) ^ 5 := by gcongr; linarith
    norm_num at this ⊢
    linarith
  have down : -3 ≤ Real.logb 2 ((1 + x) ^ 5) := by
    rw [Real.le_logb_iff_rpow_le (by norm_num) (by positivity)]
    have : (707 / 1000 : ℝ) ^ 5 ≤ (1 + x) ^ 5 := by gcongr; linarith
    have e : (2 : ℝ) ^ (-3 : ℝ) = 1 / 8 := by
      rw [Real.rpow_neg (by norm_num)]; norm_num
    rw [e]
    norm_num at this ⊢
    linarith
  rw [abs_le]; constructor <;> linarith

theorem abs_realOf_lt_two_pow {v : Ext} (h : isFiniteNonzero v = true) : |realOf v| < (2 : ℝ) ^ (16384 : ℤ) := by
  obtain ⟨-, h64⟩ := isFiniteNonzero_value h
  have e : expOf v ≠ 0x7FFF#15 := by
    intro e
    have : classOf v ≠ .normal ∧ classOf v ≠ .denormal ∧ classOf v ≠ .pseudoDenormal := by
      unfold classOf
      simp only [e]
      repeat' split
      all_goals simp_all
    unfold isFiniteNonzero isDenormal at h
    simp_all
  have ke : (valOf v).k + 64 ≤ 16384 := by
    have : (expOf v).toNat ≠ 0x7FFF := fun c => e (BitVec.eq_of_toNat_eq c)
    have := (expOf v).isLt
    unfold valOf
    dsimp only
    omega
  rw [realOf_eq, mul_assoc, abs_mul, abs_of_nonneg (by positivity : (0 : ℝ) ≤ (valOf v).n * 2 ^ (valOf v).k)]
  have s : |(if (valOf v).neg = true then (-1 : ℝ) else 1)| = 1 := by split <;> norm_num
  rw [s, one_mul]
  calc ((valOf v).n : ℝ) * 2 ^ (valOf v).k < 2 ^ 64 * 2 ^ (valOf v).k := by gcongr; exact_mod_cast h64
    _ = 2 ^ ((valOf v).k + 64) := by rw [zpow_add₀ (by norm_num), mul_comm]; norm_num
    _ ≤ 2 ^ (16384 : ℤ) := zpow_le_zpow_right₀ (by norm_num) ke

theorem ylog2xp1_exponent {y x : Ext} (hP : P.xp1Documented = true) (hy : isFiniteNonzero y = true)
    (hx : InXp1Range P x) : (roundedOf ((numerics P).ylog2xp1 (argOf y) (argOf x) rc)).exponent ≤ 16383 := by
  have nz : trueYlog2xp1 (realOf y) (realOf x) ≠ 0 :=
    trueYlog2x_ne_zero (realOf_ne_zero hy) (by have := hx.2.2; linarith) (by simpa using realOf_ne_zero hx.1)
  refine exponent_le nz ((numerics_conform P).ylog2xp1.accurate y x rc hy hx) ?_
  have hl := abs_logb_le (abs_realOf_lt hP hx)
  have hy := (abs_realOf_lt_two_pow hy).le
  have p : (0 : ℝ) < 2 ^ (16384 : ℤ) := by positivity
  unfold trueYlog2xp1
  rw [abs_mul, show (16383 : ℤ) + 1 = 16384 from rfl]
  generalize (2 : ℝ) ^ (16384 : ℤ) = b at hy p
  have : |realOf y| * |Real.logb 2 (1 + realOf x)| ≤ b * (3 / 5) := by gcongr
  norm_num
  linarith

end Sys2Proof.Machine
end

