-- ==== Sys2Proof/Laws/PerInstr.lean ====
section
/-! SUPPORT. The statements made of each instruction: the opcode fields the encoder writes for it are those the decoder
reads it from. -/

namespace Sys2Proof.Laws

/-- The row of the opcode tables that the layout of an instruction names is that instruction's, and its waiting form's where
9BH stands before it (R107 to R116). -/
def Opcode.Statement (i : Instr) : Prop :=
  match i.shape with
  | .wait p => i = .wait p
  | .mem fw p lo reg m => if fw then (memInstr lo reg p m).waitingForm = some i else memInstr lo reg p m = i
  | .reg fw p lo hi rm => if fw then (regInstr lo hi rm p).waitingForm = some i else regInstr lo hi rm p = i

theorem bit1_cases (x : BitVec 1) : x = 0#1 ∨ x = 1#1 := by revert x; decide

theorem bit2_cases (x : BitVec 2) : x = 0#2 ∨ x = 1#2 ∨ x = 2#2 ∨ x = 3#2 := by revert x; decide

theorem bit3_cases (x : BitVec 3) :
    x = 0#3 ∨ x = 1#3 ∨ x = 2#3 ∨ x = 3#3 ∨ x = 4#3 ∨ x = 5#3 ∨ x = 6#3 ∨ x = 7#3 := by revert x; decide

theorem bit4_cases (x : BitVec 4) : ∃ (a : BitVec 1) (b : BitVec 3), x = a ++ b := by
  refine ⟨x.extractLsb' 3 1, x.extractLsb' 0 3, ?_⟩; revert x; decide

theorem bit5_cases (x : BitVec 5) : ∃ (a : BitVec 2) (b : BitVec 3), x = a ++ b := by
  refine ⟨x.extractLsb' 3 2, x.extractLsb' 0 3, ?_⟩; revert x; decide

theorem Opcode.faddM32 (p : List Prefix) (m : MemForm) : Opcode.Statement (.faddM32 p m) := rfl

theorem Opcode.fmulM32 (p : List Prefix) (m : MemForm) : Opcode.Statement (.fmulM32 p m) := rfl

theorem Opcode.fcomM32 (p : List Prefix) (m : MemForm) : Opcode.Statement (.fcomM32 p m) := rfl

theorem Opcode.fcompM32 (p : List Prefix) (m : MemForm) : Opcode.Statement (.fcompM32 p m) := rfl

theorem Opcode.fsubM32 (p : List Prefix) (m : MemForm) : Opcode.Statement (.fsubM32 p m) := rfl

theorem Opcode.fsubrM32 (p : List Prefix) (m : MemForm) : Opcode.Statement (.fsubrM32 p m) := rfl

theorem Opcode.fdivM32 (p : List Prefix) (m : MemForm) : Opcode.Statement (.fdivM32 p m) := rfl

theorem Opcode.fdivrM32 (p : List Prefix) (m : MemForm) : Opcode.Statement (.fdivrM32 p m) := rfl

theorem Opcode.faddSt0Sti (p : List Prefix) (i : StIdx) : Opcode.Statement (.faddSt0Sti p i) := by
  rcases bit3_cases i with rfl | rfl | rfl | rfl | rfl | rfl | rfl | rfl <;> rfl

theorem Opcode.fmulSt0Sti (p : List Prefix) (i : StIdx) : Opcode.Statement (.fmulSt0Sti p i) := by
  rcases bit3_cases i with rfl | rfl | rfl | rfl | rfl | rfl | rfl | rfl <;> rfl

theorem Opcode.fcomSti (p : List Prefix) (i : StIdx) : Opcode.Statement (.fcomSti p i) := by
  rcases bit3_cases i with rfl | rfl | rfl | rfl | rfl | rfl | rfl | rfl <;> rfl

theorem Opcode.fcompSti (p : List Prefix) (i : StIdx) : Opcode.Statement (.fcompSti p i) := by
  rcases bit3_cases i with rfl | rfl | rfl | rfl | rfl | rfl | rfl | rfl <;> rfl

theorem Opcode.fsubSt0Sti (p : List Prefix) (i : StIdx) : Opcode.Statement (.fsubSt0Sti p i) := by
  rcases bit3_cases i with rfl | rfl | rfl | rfl | rfl | rfl | rfl | rfl <;> rfl

theorem Opcode.fsubrSt0Sti (p : List Prefix) (i : StIdx) : Opcode.Statement (.fsubrSt0Sti p i) := by
  rcases bit3_cases i with rfl | rfl | rfl | rfl | rfl | rfl | rfl | rfl <;> rfl

theorem Opcode.fdivSt0Sti (p : List Prefix) (i : StIdx) : Opcode.Statement (.fdivSt0Sti p i) := by
  rcases bit3_cases i with rfl | rfl | rfl | rfl | rfl | rfl | rfl | rfl <;> rfl

theorem Opcode.fdivrSt0Sti (p : List Prefix) (i : StIdx) : Opcode.Statement (.fdivrSt0Sti p i) := by
  rcases bit3_cases i with rfl | rfl | rfl | rfl | rfl | rfl | rfl | rfl <;> rfl

theorem Opcode.fldM32 (p : List Prefix) (m : MemForm) : Opcode.Statement (.fldM32 p m) := rfl

theorem Opcode.reservedD9m1 (p : List Prefix) (m : MemForm) : Opcode.Statement (.reservedD9m1 p m) := rfl

theorem Opcode.fstM32 (p : List Prefix) (m : MemForm) : Opcode.Statement (.fstM32 p m) := rfl

theorem Opcode.fstpM32 (p : List Prefix) (m : MemForm) : Opcode.Statement (.fstpM32 p m) := rfl

theorem Opcode.fldenv (p : List Prefix) (m : MemForm) : Opcode.Statement (.fldenv p m) := rfl

theorem Opcode.fldcw (p : List Prefix) (m : MemForm) : Opcode.Statement (.fldcw p m) := rfl

theorem Opcode.fnstenv (p : List Prefix) (m : MemForm) : Opcode.Statement (.fnstenv p m) := rfl

theorem Opcode.fnstcw (p : List Prefix) (m : MemForm) : Opcode.Statement (.fnstcw p m) := rfl

theorem Opcode.fldSti (p : List Prefix) (i : StIdx) : Opcode.Statement (.fldSti p i) := by
  rcases bit3_cases i with rfl | rfl | rfl | rfl | rfl | rfl | rfl | rfl <;> rfl

theorem Opcode.fxch (p : List Prefix) (i : StIdx) : Opcode.Statement (.fxch p i) := by
  rcases bit3_cases i with rfl | rfl | rfl | rfl | rfl | rfl | rfl | rfl <;> rfl

theorem Opcode.fnop (p : List Prefix) : Opcode.Statement (.fnop p) := rfl

theorem Opcode.reservedD9D1 (p : List Prefix) : Opcode.Statement (.reservedD9D1 p) := rfl

theorem Opcode.reservedD9D2 (p : List Prefix) (low : BitVec 1) : Opcode.Statement (.reservedD9D2 p low) := by
  rcases bit1_cases low with rfl | rfl <;> rfl

theorem Opcode.reservedD9D4 (p : List Prefix) (low : BitVec 2) : Opcode.Statement (.reservedD9D4 p low) := by
  rcases bit2_cases low with rfl | rfl | rfl | rfl <;> rfl

theorem Opcode.reservedD9D8 (p : List Prefix) (low : BitVec 3) : Opcode.Statement (.reservedD9D8 p low) := by
  rcases bit3_cases low with rfl | rfl | rfl | rfl | rfl | rfl | rfl | rfl <;> rfl

theorem Opcode.fchs (p : List Prefix) : Opcode.Statement (.fchs p) := rfl

theorem Opcode.fabs (p : List Prefix) : Opcode.Statement (.fabs p) := rfl

theorem Opcode.reservedD9E2 (p : List Prefix) (low : BitVec 1) : Opcode.Statement (.reservedD9E2 p low) := by
  rcases bit1_cases low with rfl | rfl <;> rfl

theorem Opcode.ftst (p : List Prefix) : Opcode.Statement (.ftst p) := rfl

theorem Opcode.fxam (p : List Prefix) : Opcode.Statement (.fxam p) := rfl

theorem Opcode.reservedD9E6 (p : List Prefix) (low : BitVec 1) : Opcode.Statement (.reservedD9E6 p low) := by
  rcases bit1_cases low with rfl | rfl <;> rfl

theorem Opcode.fld1 (p : List Prefix) : Opcode.Statement (.fld1 p) := rfl

theorem Opcode.fldl2t (p : List Prefix) : Opcode.Statement (.fldl2t p) := rfl

theorem Opcode.fldl2e (p : List Prefix) : Opcode.Statement (.fldl2e p) := rfl

theorem Opcode.fldpi (p : List Prefix) : Opcode.Statement (.fldpi p) := rfl

theorem Opcode.fldlg2 (p : List Prefix) : Opcode.Statement (.fldlg2 p) := rfl

theorem Opcode.fldln2 (p : List Prefix) : Opcode.Statement (.fldln2 p) := rfl

theorem Opcode.fldz (p : List Prefix) : Opcode.Statement (.fldz p) := rfl

theorem Opcode.reservedD9EF (p : List Prefix) : Opcode.Statement (.reservedD9EF p) := rfl

theorem Opcode.f2xm1 (p : List Prefix) : Opcode.Statement (.f2xm1 p) := rfl

theorem Opcode.fyl2x (p : List Prefix) : Opcode.Statement (.fyl2x p) := rfl

theorem Opcode.fptan (p : List Prefix) : Opcode.Statement (.fptan p) := rfl

theorem Opcode.fpatan (p : List Prefix) : Opcode.Statement (.fpatan p) := rfl

theorem Opcode.fxtract (p : List Prefix) : Opcode.Statement (.fxtract p) := rfl

theorem Opcode.fprem1 (p : List Prefix) : Opcode.Statement (.fprem1 p) := rfl

theorem Opcode.fdecstp (p : List Prefix) : Opcode.Statement (.fdecstp p) := rfl

theorem Opcode.fincstp (p : List Prefix) : Opcode.Statement (.fincstp p) := rfl

theorem Opcode.fprem (p : List Prefix) : Opcode.Statement (.fprem p) := rfl

theorem Opcode.fyl2xp1 (p : List Prefix) : Opcode.Statement (.fyl2xp1 p) := rfl

theorem Opcode.fsqrt (p : List Prefix) : Opcode.Statement (.fsqrt p) := rfl

theorem Opcode.fsincos (p : List Prefix) : Opcode.Statement (.fsincos p) := rfl

theorem Opcode.frndint (p : List Prefix) : Opcode.Statement (.frndint p) := rfl

theorem Opcode.fscale (p : List Prefix) : Opcode.Statement (.fscale p) := rfl

theorem Opcode.fsin (p : List Prefix) : Opcode.Statement (.fsin p) := rfl

theorem Opcode.fcos (p : List Prefix) : Opcode.Statement (.fcos p) := rfl

theorem Opcode.fiaddM32i (p : List Prefix) (m : MemForm) : Opcode.Statement (.fiaddM32i p m) := rfl

theorem Opcode.fimulM32i (p : List Prefix) (m : MemForm) : Opcode.Statement (.fimulM32i p m) := rfl

theorem Opcode.ficomM32i (p : List Prefix) (m : MemForm) : Opcode.Statement (.ficomM32i p m) := rfl

theorem Opcode.ficompM32i (p : List Prefix) (m : MemForm) : Opcode.Statement (.ficompM32i p m) := rfl

theorem Opcode.fisubM32i (p : List Prefix) (m : MemForm) : Opcode.Statement (.fisubM32i p m) := rfl

theorem Opcode.fisubrM32i (p : List Prefix) (m : MemForm) : Opcode.Statement (.fisubrM32i p m) := rfl

theorem Opcode.fidivM32i (p : List Prefix) (m : MemForm) : Opcode.Statement (.fidivM32i p m) := rfl

theorem Opcode.fidivrM32i (p : List Prefix) (m : MemForm) : Opcode.Statement (.fidivrM32i p m) := rfl

theorem Opcode.fcmovb (p : List Prefix) (i : StIdx) : Opcode.Statement (.fcmovb p i) := by
  rcases bit3_cases i with rfl | rfl | rfl | rfl | rfl | rfl | rfl | rfl <;> rfl

theorem Opcode.fcmove (p : List Prefix) (i : StIdx) : Opcode.Statement (.fcmove p i) := by
  rcases bit3_cases i with rfl | rfl | rfl | rfl | rfl | rfl | rfl | rfl <;> rfl

theorem Opcode.fcmovbe (p : List Prefix) (i : StIdx) : Opcode.Statement (.fcmovbe p i) := by
  rcases bit3_cases i with rfl | rfl | rfl | rfl | rfl | rfl | rfl | rfl <;> rfl

theorem Opcode.fcmovu (p : List Prefix) (i : StIdx) : Opcode.Statement (.fcmovu p i) := by
  rcases bit3_cases i with rfl | rfl | rfl | rfl | rfl | rfl | rfl | rfl <;> rfl

theorem Opcode.reservedDAE0 (p : List Prefix) (low : BitVec 3) : Opcode.Statement (.reservedDAE0 p low) := by
  rcases bit3_cases low with rfl | rfl | rfl | rfl | rfl | rfl | rfl | rfl <;> rfl

theorem Opcode.reservedDAE8 (p : List Prefix) : Opcode.Statement (.reservedDAE8 p) := rfl

theorem Opcode.fucompp (p : List Prefix) : Opcode.Statement (.fucompp p) := rfl

theorem Opcode.reservedDAEA (p : List Prefix) (low : BitVec 1) : Opcode.Statement (.reservedDAEA p low) := by
  rcases bit1_cases low with rfl | rfl <;> rfl

theorem Opcode.reservedDAEC (p : List Prefix) (low : BitVec 2) : Opcode.Statement (.reservedDAEC p low) := by
  rcases bit2_cases low with rfl | rfl | rfl | rfl <;> rfl

theorem Opcode.reservedDAF0 (p : List Prefix) (low : BitVec 4) : Opcode.Statement (.reservedDAF0 p low) := by
  obtain ⟨a, b, rfl⟩ := bit4_cases low
  rcases bit1_cases a with rfl | rfl <;> rcases bit3_cases b with rfl | rfl | rfl | rfl | rfl | rfl | rfl | rfl <;> rfl

theorem Opcode.fildM32i (p : List Prefix) (m : MemForm) : Opcode.Statement (.fildM32i p m) := rfl

theorem Opcode.reservedDBm1 (p : List Prefix) (m : MemForm) : Opcode.Statement (.reservedDBm1 p m) := rfl

theorem Opcode.fistM32i (p : List Prefix) (m : MemForm) : Opcode.Statement (.fistM32i p m) := rfl

theorem Opcode.fistpM32i (p : List Prefix) (m : MemForm) : Opcode.Statement (.fistpM32i p m) := rfl

theorem Opcode.reservedDBm4 (p : List Prefix) (m : MemForm) : Opcode.Statement (.reservedDBm4 p m) := rfl

theorem Opcode.fldM80 (p : List Prefix) (m : MemForm) : Opcode.Statement (.fldM80 p m) := rfl

theorem Opcode.reservedDBm6 (p : List Prefix) (m : MemForm) : Opcode.Statement (.reservedDBm6 p m) := rfl

theorem Opcode.fstpM80 (p : List Prefix) (m : MemForm) : Opcode.Statement (.fstpM80 p m) := rfl

theorem Opcode.fcmovnb (p : List Prefix) (i : StIdx) : Opcode.Statement (.fcmovnb p i) := by
  rcases bit3_cases i with rfl | rfl | rfl | rfl | rfl | rfl | rfl | rfl <;> rfl

theorem Opcode.fcmovne (p : List Prefix) (i : StIdx) : Opcode.Statement (.fcmovne p i) := by
  rcases bit3_cases i with rfl | rfl | rfl | rfl | rfl | rfl | rfl | rfl <;> rfl

theorem Opcode.fcmovnbe (p : List Prefix) (i : StIdx) : Opcode.Statement (.fcmovnbe p i) := by
  rcases bit3_cases i with rfl | rfl | rfl | rfl | rfl | rfl | rfl | rfl <;> rfl

theorem Opcode.fcmovnu (p : List Prefix) (i : StIdx) : Opcode.Statement (.fcmovnu p i) := by
  rcases bit3_cases i with rfl | rfl | rfl | rfl | rfl | rfl | rfl | rfl <;> rfl

theorem Opcode.feni (p : List Prefix) : Opcode.Statement (.feni p) := rfl

theorem Opcode.fdisi (p : List Prefix) : Opcode.Statement (.fdisi p) := rfl

theorem Opcode.fnclex (p : List Prefix) : Opcode.Statement (.fnclex p) := rfl

theorem Opcode.fninit (p : List Prefix) : Opcode.Statement (.fninit p) := rfl

theorem Opcode.fsetpm (p : List Prefix) : Opcode.Statement (.fsetpm p) := rfl

theorem Opcode.reservedDBE5 (p : List Prefix) : Opcode.Statement (.reservedDBE5 p) := rfl

theorem Opcode.reservedDBE6 (p : List Prefix) (low : BitVec 1) : Opcode.Statement (.reservedDBE6 p low) := by
  rcases bit1_cases low with rfl | rfl <;> rfl

theorem Opcode.fucomi (p : List Prefix) (i : StIdx) : Opcode.Statement (.fucomi p i) := by
  rcases bit3_cases i with rfl | rfl | rfl | rfl | rfl | rfl | rfl | rfl <;> rfl

theorem Opcode.fcomi (p : List Prefix) (i : StIdx) : Opcode.Statement (.fcomi p i) := by
  rcases bit3_cases i with rfl | rfl | rfl | rfl | rfl | rfl | rfl | rfl <;> rfl

theorem Opcode.reservedDBF8 (p : List Prefix) (low : BitVec 3) : Opcode.Statement (.reservedDBF8 p low) := by
  rcases bit3_cases low with rfl | rfl | rfl | rfl | rfl | rfl | rfl | rfl <;> rfl

theorem Opcode.faddM64 (p : List Prefix) (m : MemForm) : Opcode.Statement (.faddM64 p m) := rfl

theorem Opcode.fmulM64 (p : List Prefix) (m : MemForm) : Opcode.Statement (.fmulM64 p m) := rfl

theorem Opcode.fcomM64 (p : List Prefix) (m : MemForm) : Opcode.Statement (.fcomM64 p m) := rfl

theorem Opcode.fcompM64 (p : List Prefix) (m : MemForm) : Opcode.Statement (.fcompM64 p m) := rfl

theorem Opcode.fsubM64 (p : List Prefix) (m : MemForm) : Opcode.Statement (.fsubM64 p m) := rfl

theorem Opcode.fsubrM64 (p : List Prefix) (m : MemForm) : Opcode.Statement (.fsubrM64 p m) := rfl

theorem Opcode.fdivM64 (p : List Prefix) (m : MemForm) : Opcode.Statement (.fdivM64 p m) := rfl

theorem Opcode.fdivrM64 (p : List Prefix) (m : MemForm) : Opcode.Statement (.fdivrM64 p m) := rfl

theorem Opcode.faddStiSt0 (p : List Prefix) (i : StIdx) : Opcode.Statement (.faddStiSt0 p i) := by
  rcases bit3_cases i with rfl | rfl | rfl | rfl | rfl | rfl | rfl | rfl <;> rfl

theorem Opcode.fmulStiSt0 (p : List Prefix) (i : StIdx) : Opcode.Statement (.fmulStiSt0 p i) := by
  rcases bit3_cases i with rfl | rfl | rfl | rfl | rfl | rfl | rfl | rfl <;> rfl

theorem Opcode.reservedDCD0 (p : List Prefix) (low : BitVec 4) : Opcode.Statement (.reservedDCD0 p low) := by
  obtain ⟨a, b, rfl⟩ := bit4_cases low
  rcases bit1_cases a with rfl | rfl <;> rcases bit3_cases b with rfl | rfl | rfl | rfl | rfl | rfl | rfl | rfl <;> rfl

theorem Opcode.fsubrStiSt0 (p : List Prefix) (i : StIdx) : Opcode.Statement (.fsubrStiSt0 p i) := by
  rcases bit3_cases i with rfl | rfl | rfl | rfl | rfl | rfl | rfl | rfl <;> rfl

theorem Opcode.fsubStiSt0 (p : List Prefix) (i : StIdx) : Opcode.Statement (.fsubStiSt0 p i) := by
  rcases bit3_cases i with rfl | rfl | rfl | rfl | rfl | rfl | rfl | rfl <;> rfl

theorem Opcode.fdivrStiSt0 (p : List Prefix) (i : StIdx) : Opcode.Statement (.fdivrStiSt0 p i) := by
  rcases bit3_cases i with rfl | rfl | rfl | rfl | rfl | rfl | rfl | rfl <;> rfl

theorem Opcode.fdivStiSt0 (p : List Prefix) (i : StIdx) : Opcode.Statement (.fdivStiSt0 p i) := by
  rcases bit3_cases i with rfl | rfl | rfl | rfl | rfl | rfl | rfl | rfl <;> rfl

theorem Opcode.fldM64 (p : List Prefix) (m : MemForm) : Opcode.Statement (.fldM64 p m) := rfl

theorem Opcode.reservedDDm1 (p : List Prefix) (m : MemForm) : Opcode.Statement (.reservedDDm1 p m) := rfl

theorem Opcode.fstM64 (p : List Prefix) (m : MemForm) : Opcode.Statement (.fstM64 p m) := rfl

theorem Opcode.fstpM64 (p : List Prefix) (m : MemForm) : Opcode.Statement (.fstpM64 p m) := rfl

theorem Opcode.frstor (p : List Prefix) (m : MemForm) : Opcode.Statement (.frstor p m) := rfl

theorem Opcode.reservedDDm5 (p : List Prefix) (m : MemForm) : Opcode.Statement (.reservedDDm5 p m) := rfl

theorem Opcode.fnsave (p : List Prefix) (m : MemForm) : Opcode.Statement (.fnsave p m) := rfl

theorem Opcode.fnstswM16 (p : List Prefix) (m : MemForm) : Opcode.Statement (.fnstswM16 p m) := rfl

theorem Opcode.ffree (p : List Prefix) (i : StIdx) : Opcode.Statement (.ffree p i) := by
  rcases bit3_cases i with rfl | rfl | rfl | rfl | rfl | rfl | rfl | rfl <;> rfl

theorem Opcode.reservedDDC8 (p : List Prefix) (low : BitVec 3) : Opcode.Statement (.reservedDDC8 p low) := by
  rcases bit3_cases low with rfl | rfl | rfl | rfl | rfl | rfl | rfl | rfl <;> rfl

theorem Opcode.fstSti (p : List Prefix) (i : StIdx) : Opcode.Statement (.fstSti p i) := by
  rcases bit3_cases i with rfl | rfl | rfl | rfl | rfl | rfl | rfl | rfl <;> rfl

theorem Opcode.fstpSti (p : List Prefix) (i : StIdx) : Opcode.Statement (.fstpSti p i) := by
  rcases bit3_cases i with rfl | rfl | rfl | rfl | rfl | rfl | rfl | rfl <;> rfl

theorem Opcode.fucom (p : List Prefix) (i : StIdx) : Opcode.Statement (.fucom p i) := by
  rcases bit3_cases i with rfl | rfl | rfl | rfl | rfl | rfl | rfl | rfl <;> rfl

theorem Opcode.fucomp (p : List Prefix) (i : StIdx) : Opcode.Statement (.fucomp p i) := by
  rcases bit3_cases i with rfl | rfl | rfl | rfl | rfl | rfl | rfl | rfl <;> rfl

theorem Opcode.reservedDDF0 (p : List Prefix) (low : BitVec 4) : Opcode.Statement (.reservedDDF0 p low) := by
  obtain ⟨a, b, rfl⟩ := bit4_cases low
  rcases bit1_cases a with rfl | rfl <;> rcases bit3_cases b with rfl | rfl | rfl | rfl | rfl | rfl | rfl | rfl <;> rfl

theorem Opcode.fiaddM16i (p : List Prefix) (m : MemForm) : Opcode.Statement (.fiaddM16i p m) := rfl

theorem Opcode.fimulM16i (p : List Prefix) (m : MemForm) : Opcode.Statement (.fimulM16i p m) := rfl

theorem Opcode.ficomM16i (p : List Prefix) (m : MemForm) : Opcode.Statement (.ficomM16i p m) := rfl

theorem Opcode.ficompM16i (p : List Prefix) (m : MemForm) : Opcode.Statement (.ficompM16i p m) := rfl

theorem Opcode.fisubM16i (p : List Prefix) (m : MemForm) : Opcode.Statement (.fisubM16i p m) := rfl

theorem Opcode.fisubrM16i (p : List Prefix) (m : MemForm) : Opcode.Statement (.fisubrM16i p m) := rfl

theorem Opcode.fidivM16i (p : List Prefix) (m : MemForm) : Opcode.Statement (.fidivM16i p m) := rfl

theorem Opcode.fidivrM16i (p : List Prefix) (m : MemForm) : Opcode.Statement (.fidivrM16i p m) := rfl

theorem Opcode.faddp (p : List Prefix) (i : StIdx) : Opcode.Statement (.faddp p i) := by
  rcases bit3_cases i with rfl | rfl | rfl | rfl | rfl | rfl | rfl | rfl <;> rfl

theorem Opcode.fmulp (p : List Prefix) (i : StIdx) : Opcode.Statement (.fmulp p i) := by
  rcases bit3_cases i with rfl | rfl | rfl | rfl | rfl | rfl | rfl | rfl <;> rfl

theorem Opcode.reservedDED0 (p : List Prefix) (low : BitVec 3) : Opcode.Statement (.reservedDED0 p low) := by
  rcases bit3_cases low with rfl | rfl | rfl | rfl | rfl | rfl | rfl | rfl <;> rfl

theorem Opcode.reservedDED8 (p : List Prefix) : Opcode.Statement (.reservedDED8 p) := rfl

theorem Opcode.fcompp (p : List Prefix) : Opcode.Statement (.fcompp p) := rfl

theorem Opcode.reservedDEDA (p : List Prefix) (low : BitVec 1) : Opcode.Statement (.reservedDEDA p low) := by
  rcases bit1_cases low with rfl | rfl <;> rfl

theorem Opcode.reservedDEDC (p : List Prefix) (low : BitVec 2) : Opcode.Statement (.reservedDEDC p low) := by
  rcases bit2_cases low with rfl | rfl | rfl | rfl <;> rfl

theorem Opcode.fsubrp (p : List Prefix) (i : StIdx) : Opcode.Statement (.fsubrp p i) := by
  rcases bit3_cases i with rfl | rfl | rfl | rfl | rfl | rfl | rfl | rfl <;> rfl

theorem Opcode.fsubp (p : List Prefix) (i : StIdx) : Opcode.Statement (.fsubp p i) := by
  rcases bit3_cases i with rfl | rfl | rfl | rfl | rfl | rfl | rfl | rfl <;> rfl

theorem Opcode.fdivrp (p : List Prefix) (i : StIdx) : Opcode.Statement (.fdivrp p i) := by
  rcases bit3_cases i with rfl | rfl | rfl | rfl | rfl | rfl | rfl | rfl <;> rfl

theorem Opcode.fdivp (p : List Prefix) (i : StIdx) : Opcode.Statement (.fdivp p i) := by
  rcases bit3_cases i with rfl | rfl | rfl | rfl | rfl | rfl | rfl | rfl <;> rfl

theorem Opcode.fildM16i (p : List Prefix) (m : MemForm) : Opcode.Statement (.fildM16i p m) := rfl

theorem Opcode.reservedDFm1 (p : List Prefix) (m : MemForm) : Opcode.Statement (.reservedDFm1 p m) := rfl

theorem Opcode.fistM16i (p : List Prefix) (m : MemForm) : Opcode.Statement (.fistM16i p m) := rfl

theorem Opcode.fistpM16i (p : List Prefix) (m : MemForm) : Opcode.Statement (.fistpM16i p m) := rfl

theorem Opcode.fbld (p : List Prefix) (m : MemForm) : Opcode.Statement (.fbld p m) := rfl

theorem Opcode.fildM64i (p : List Prefix) (m : MemForm) : Opcode.Statement (.fildM64i p m) := rfl

theorem Opcode.fbstp (p : List Prefix) (m : MemForm) : Opcode.Statement (.fbstp p m) := rfl

theorem Opcode.fistpM64i (p : List Prefix) (m : MemForm) : Opcode.Statement (.fistpM64i p m) := rfl

theorem Opcode.reservedDFC0 (p : List Prefix) (low : BitVec 5) : Opcode.Statement (.reservedDFC0 p low) := by
  obtain ⟨a, b, rfl⟩ := bit5_cases low
  rcases bit2_cases a with rfl | rfl | rfl | rfl <;> rcases bit3_cases b with rfl | rfl | rfl | rfl | rfl | rfl | rfl | rfl <;> rfl

theorem Opcode.fnstswAx (p : List Prefix) : Opcode.Statement (.fnstswAx p) := rfl

theorem Opcode.reservedDFE1 (p : List Prefix) : Opcode.Statement (.reservedDFE1 p) := rfl

theorem Opcode.reservedDFE2 (p : List Prefix) (low : BitVec 1) : Opcode.Statement (.reservedDFE2 p low) := by
  rcases bit1_cases low with rfl | rfl <;> rfl

theorem Opcode.reservedDFE4 (p : List Prefix) (low : BitVec 2) : Opcode.Statement (.reservedDFE4 p low) := by
  rcases bit2_cases low with rfl | rfl | rfl | rfl <;> rfl

theorem Opcode.fucomip (p : List Prefix) (i : StIdx) : Opcode.Statement (.fucomip p i) := by
  rcases bit3_cases i with rfl | rfl | rfl | rfl | rfl | rfl | rfl | rfl <;> rfl

theorem Opcode.fcomip (p : List Prefix) (i : StIdx) : Opcode.Statement (.fcomip p i) := by
  rcases bit3_cases i with rfl | rfl | rfl | rfl | rfl | rfl | rfl | rfl <;> rfl

theorem Opcode.reservedDFF8 (p : List Prefix) (low : BitVec 3) : Opcode.Statement (.reservedDFF8 p low) := by
  rcases bit3_cases low with rfl | rfl | rfl | rfl | rfl | rfl | rfl | rfl <;> rfl

theorem Opcode.wait (p : List Prefix) : Opcode.Statement (.wait p) := rfl

theorem Opcode.finit (p : List Prefix) : Opcode.Statement (.finit p) := rfl

theorem Opcode.fclex (p : List Prefix) : Opcode.Statement (.fclex p) := rfl

theorem Opcode.fstcw (p : List Prefix) (m : MemForm) : Opcode.Statement (.fstcw p m) := rfl

theorem Opcode.fstswM16 (p : List Prefix) (m : MemForm) : Opcode.Statement (.fstswM16 p m) := rfl

theorem Opcode.fstswAx (p : List Prefix) : Opcode.Statement (.fstswAx p) := rfl

theorem Opcode.fstenv (p : List Prefix) (m : MemForm) : Opcode.Statement (.fstenv p m) := rfl

theorem Opcode.fsave (p : List Prefix) (m : MemForm) : Opcode.Statement (.fsave p m) := rfl

end Sys2Proof.Laws
end

