-- ==== Sys2Proof/Tests/Slice0.lean ====
section
/-! SUPPORT. Tests: the checks of WellFormed, the decoding of a written-out word of every row of the opcode table, single
steps with the results of spec/95_test_vectors.md, and for each statement with hypotheses a case that meets them. -/

-- One theorem after the other: each waits for the kernel.
set_option Elab.async false

namespace Sys2Proof.Tests

open Sys2Proof.Machine

/-! ### WellFormed: each check refuses a term that breaks it -/

theorem test_wellFormed_accepts : (Instr.fldM32 [.fs] (.base .ebp (.d8 4))).wellFormed true = true := by decide

theorem test_wellFormed_lock : (Instr.fld1 [.lock]).wellFormed true = false := by decide

theorem test_wellFormed_rep : (Instr.fld1 [.rep]).wellFormed true = false := by decide

theorem test_wellFormed_repne : (Instr.fld1 [.repne]).wellFormed true = false := by decide

theorem test_wellFormed_too_long : (Instr.fldM32 (List.replicate 10 .ds) (.abs 0)).wellFormed true = false := by decide

theorem test_wellFormed_longest : (Instr.fldM32 (List.replicate 9 .ds) (.abs 0)).wellFormed true = true := by decide

theorem test_wellFormed_address_size : (Instr.fldM32 [] (.base16 .si .none)).wellFormed true = false := by decide

theorem test_wellFormed_esp_base : (Instr.fldM32 [] (.base .esp .none)).wellFormed true = false := by decide

theorem test_wellFormed_esp_index : (Instr.fldM32 [] (.sib 0 (some .esp) .eax .none)).wellFormed true = false := by
  decide

theorem test_wellFormed_esp_index_no_base : (Instr.fldM32 [] (.sibAbs 0 (some .esp) 0)).wellFormed true = false := by
  decide

theorem test_wellFormed_ebp_base : (Instr.fldM32 [] (.base .ebp .none)).wellFormed true = false := by decide

theorem test_wellFormed_ebp_sib : (Instr.fldM32 [] (.sib 0 none .ebp .none)).wellFormed true = false := by decide

theorem test_wellFormed_bp_base : (Instr.fldM32 [] (.base16 .bp .none)).wellFormed false = false := by decide

/-! ### Decoding: a word of every row (R101 to R117), written out from the opcode table -/

/-- Each list of bytes decodes to its instruction in a 32-bit code segment, with nothing left. -/
def decodesTo (l : List (List Byte × Instr)) : Bool :=
  l.all fun x =>
    match decode true x.1 with
    | .ok (i, []) => i == x.2
    | _ => false

theorem test_decode_D8_mem : decodesTo
    [([0xD8, 0x00], .faddM32 [] (.base .eax .none)),
     ([0xD8, 0x08], .fmulM32 [] (.base .eax .none)),
     ([0xD8, 0x10], .fcomM32 [] (.base .eax .none)),
     ([0xD8, 0x18], .fcompM32 [] (.base .eax .none)),
     ([0xD8, 0x20], .fsubM32 [] (.base .eax .none)),
     ([0xD8, 0x28], .fsubrM32 [] (.base .eax .none)),
     ([0xD8, 0x30], .fdivM32 [] (.base .eax .none)),
     ([0xD8, 0x38], .fdivrM32 [] (.base .eax .none))] = true := by
  decide +kernel

theorem test_decode_D8_reg : decodesTo
    [([0xD8, 0xC5], .faddSt0Sti [] 5),
     ([0xD8, 0xCD], .fmulSt0Sti [] 5),
     ([0xD8, 0xD5], .fcomSti [] 5),
     ([0xD8, 0xDD], .fcompSti [] 5),
     ([0xD8, 0xE5], .fsubSt0Sti [] 5),
     ([0xD8, 0xED], .fsubrSt0Sti [] 5),
     ([0xD8, 0xF5], .fdivSt0Sti [] 5),
     ([0xD8, 0xFD], .fdivrSt0Sti [] 5)] = true := by
  decide +kernel

theorem test_decode_D9_mem : decodesTo
    [([0xD9, 0x00], .fldM32 [] (.base .eax .none)),
     ([0xD9, 0x08], .reservedD9m1 [] (.base .eax .none)),
     ([0xD9, 0x10], .fstM32 [] (.base .eax .none)),
     ([0xD9, 0x18], .fstpM32 [] (.base .eax .none)),
     ([0xD9, 0x20], .fldenv [] (.base .eax .none)),
     ([0xD9, 0x28], .fldcw [] (.base .eax .none)),
     ([0xD9, 0x30], .fnstenv [] (.base .eax .none)),
     ([0xD9, 0x38], .fnstcw [] (.base .eax .none))] = true := by
  decide +kernel

theorem test_decode_D9_reg : decodesTo
    [([0xD9, 0xC5], .fldSti [] 5),
     ([0xD9, 0xCD], .fxch [] 5),
     ([0xD9, 0xD0], .fnop []),
     ([0xD9, 0xD1], .reservedD9D1 []),
     ([0xD9, 0xD3], .reservedD9D2 [] 1#1),
     ([0xD9, 0xD7], .reservedD9D4 [] 3#2),
     ([0xD9, 0xDE], .reservedD9D8 [] 6#3),
     ([0xD9, 0xE0], .fchs []),
     ([0xD9, 0xE1], .fabs []),
     ([0xD9, 0xE3], .reservedD9E2 [] 1#1),
     ([0xD9, 0xE4], .ftst []),
     ([0xD9, 0xE5], .fxam []),
     ([0xD9, 0xE7], .reservedD9E6 [] 1#1),
     ([0xD9, 0xE8], .fld1 []),
     ([0xD9, 0xE9], .fldl2t []),
     ([0xD9, 0xEA], .fldl2e []),
     ([0xD9, 0xEB], .fldpi []),
     ([0xD9, 0xEC], .fldlg2 []),
     ([0xD9, 0xED], .fldln2 []),
     ([0xD9, 0xEE], .fldz []),
     ([0xD9, 0xEF], .reservedD9EF []),
     ([0xD9, 0xF0], .f2xm1 []),
     ([0xD9, 0xF1], .fyl2x []),
     ([0xD9, 0xF2], .fptan []),
     ([0xD9, 0xF3], .fpatan []),
     ([0xD9, 0xF4], .fxtract []),
     ([0xD9, 0xF5], .fprem1 []),
     ([0xD9, 0xF6], .fdecstp []),
     ([0xD9, 0xF7], .fincstp []),
     ([0xD9, 0xF8], .fprem []),
     ([0xD9, 0xF9], .fyl2xp1 []),
     ([0xD9, 0xFA], .fsqrt []),
     ([0xD9, 0xFB], .fsincos []),
     ([0xD9, 0xFC], .frndint []),
     ([0xD9, 0xFD], .fscale []),
     ([0xD9, 0xFE], .fsin []),
     ([0xD9, 0xFF], .fcos [])] = true := by
  decide +kernel

theorem test_decode_DA_mem : decodesTo
    [([0xDA, 0x00], .fiaddM32i [] (.base .eax .none)),
     ([0xDA, 0x08], .fimulM32i [] (.base .eax .none)),
     ([0xDA, 0x10], .ficomM32i [] (.base .eax .none)),
     ([0xDA, 0x18], .ficompM32i [] (.base .eax .none)),
     ([0xDA, 0x20], .fisubM32i [] (.base .eax .none)),
     ([0xDA, 0x28], .fisubrM32i [] (.base .eax .none)),
     ([0xDA, 0x30], .fidivM32i [] (.base .eax .none)),
     ([0xDA, 0x38], .fidivrM32i [] (.base .eax .none))] = true := by
  decide +kernel

theorem test_decode_DA_reg : decodesTo
    [([0xDA, 0xC5], .fcmovb [] 5),
     ([0xDA, 0xCD], .fcmove [] 5),
     ([0xDA, 0xD5], .fcmovbe [] 5),
     ([0xDA, 0xDD], .fcmovu [] 5),
     ([0xDA, 0xE6], .reservedDAE0 [] 6#3),
     ([0xDA, 0xE8], .reservedDAE8 []),
     ([0xDA, 0xE9], .fucompp []),
     ([0xDA, 0xEB], .reservedDAEA [] 1#1),
     ([0xDA, 0xEF], .reservedDAEC [] 3#2),
     ([0xDA, 0xFE], .reservedDAF0 [] 14#4)] = true := by
  decide +kernel

theorem test_decode_DB_mem : decodesTo
    [([0xDB, 0x00], .fildM32i [] (.base .eax .none)),
     ([0xDB, 0x08], .reservedDBm1 [] (.base .eax .none)),
     ([0xDB, 0x10], .fistM32i [] (.base .eax .none)),
     ([0xDB, 0x18], .fistpM32i [] (.base .eax .none)),
     ([0xDB, 0x20], .reservedDBm4 [] (.base .eax .none)),
     ([0xDB, 0x28], .fldM80 [] (.base .eax .none)),
     ([0xDB, 0x30], .reservedDBm6 [] (.base .eax .none)),
     ([0xDB, 0x38], .fstpM80 [] (.base .eax .none))] = true := by
  decide +kernel

theorem test_decode_DB_reg : decodesTo
    [([0xDB, 0xC5], .fcmovnb [] 5),
     ([0xDB, 0xCD], .fcmovne [] 5),
     ([0xDB, 0xD5], .fcmovnbe [] 5),
     ([0xDB, 0xDD], .fcmovnu [] 5),
     ([0xDB, 0xE0], .feni []),
     ([0xDB, 0xE1], .fdisi []),
     ([0xDB, 0xE2], .fnclex []),
     ([0xDB, 0xE3], .fninit []),
     ([0xDB, 0xE4], .fsetpm []),
     ([0xDB, 0xE5], .reservedDBE5 []),
     ([0xDB, 0xE7], .reservedDBE6 [] 1#1),
     ([0xDB, 0xED], .fucomi [] 5),
     ([0xDB, 0xF5], .fcomi [] 5),
     ([0xDB, 0xFE], .reservedDBF8 [] 6#3)] = true := by
  decide +kernel

theorem test_decode_DC_mem : decodesTo
    [([0xDC, 0x00], .faddM64 [] (.base .eax .none)),
     ([0xDC, 0x08], .fmulM64 [] (.base .eax .none)),
     ([0xDC, 0x10], .fcomM64 [] (.base .eax .none)),
     ([0xDC, 0x18], .fcompM64 [] (.base .eax .none)),
     ([0xDC, 0x20], .fsubM64 [] (.base .eax .none)),
     ([0xDC, 0x28], .fsubrM64 [] (.base .eax .none)),
     ([0xDC, 0x30], .fdivM64 [] (.base .eax .none)),
     ([0xDC, 0x38], .fdivrM64 [] (.base .eax .none))] = true := by
  decide +kernel

theorem test_decode_DC_reg : decodesTo
    [([0xDC, 0xC5], .faddStiSt0 [] 5),
     ([0xDC, 0xCD], .fmulStiSt0 [] 5),
     ([0xDC, 0xDE], .reservedDCD0 [] 14#4),
     ([0xDC, 0xE5], .fsubrStiSt0 [] 5),
     ([0xDC, 0xED], .fsubStiSt0 [] 5),
     ([0xDC, 0xF5], .fdivrStiSt0 [] 5),
     ([0xDC, 0xFD], .fdivStiSt0 [] 5)] = true := by
  decide +kernel

theorem test_decode_DD_mem : decodesTo
    [([0xDD, 0x00], .fldM64 [] (.base .eax .none)),
     ([0xDD, 0x08], .reservedDDm1 [] (.base .eax .none)),
     ([0xDD, 0x10], .fstM64 [] (.base .eax .none)),
     ([0xDD, 0x18], .fstpM64 [] (.base .eax .none)),
     ([0xDD, 0x20], .frstor [] (.base .eax .none)),
     ([0xDD, 0x28], .reservedDDm5 [] (.base .eax .none)),
     ([0xDD, 0x30], .fnsave [] (.base .eax .none)),
     ([0xDD, 0x38], .fnstswM16 [] (.base .eax .none))] = true := by
  decide +kernel

theorem test_decode_DD_reg : decodesTo
    [([0xDD, 0xC5], .ffree [] 5),
     ([0xDD, 0xCE], .reservedDDC8 [] 6#3),
     ([0xDD, 0xD5], .fstSti [] 5),
     ([0xDD, 0xDD], .fstpSti [] 5),
     ([0xDD, 0xE5], .fucom [] 5),
     ([0xDD, 0xED], .fucomp [] 5),
     ([0xDD, 0xFE], .reservedDDF0 [] 14#4)] = true := by
  decide +kernel

theorem test_decode_DE_mem : decodesTo
    [([0xDE, 0x00], .fiaddM16i [] (.base .eax .none)),
     ([0xDE, 0x08], .fimulM16i [] (.base .eax .none)),
     ([0xDE, 0x10], .ficomM16i [] (.base .eax .none)),
     ([0xDE, 0x18], .ficompM16i [] (.base .eax .none)),
     ([0xDE, 0x20], .fisubM16i [] (.base .eax .none)),
     ([0xDE, 0x28], .fisubrM16i [] (.base .eax .none)),
     ([0xDE, 0x30], .fidivM16i [] (.base .eax .none)),
     ([0xDE, 0x38], .fidivrM16i [] (.base .eax .none))] = true := by
  decide +kernel

theorem test_decode_DE_reg : decodesTo
    [([0xDE, 0xC5], .faddp [] 5),
     ([0xDE, 0xCD], .fmulp [] 5),
     ([0xDE, 0xD6], .reservedDED0 [] 6#3),
     ([0xDE, 0xD8], .reservedDED8 []),
     ([0xDE, 0xD9], .fcompp []),
     ([0xDE, 0xDB], .reservedDEDA [] 1#1),
     ([0xDE, 0xDF], .reservedDEDC [] 3#2),
     ([0xDE, 0xE5], .fsubrp [] 5),
     ([0xDE, 0xED], .fsubp [] 5),
     ([0xDE, 0xF5], .fdivrp [] 5),
     ([0xDE, 0xFD], .fdivp [] 5)] = true := by
  decide +kernel

theorem test_decode_DF_mem : decodesTo
    [([0xDF, 0x00], .fildM16i [] (.base .eax .none)),
     ([0xDF, 0x08], .reservedDFm1 [] (.base .eax .none)),
     ([0xDF, 0x10], .fistM16i [] (.base .eax .none)),
     ([0xDF, 0x18], .fistpM16i [] (.base .eax .none)),
     ([0xDF, 0x20], .fbld [] (.base .eax .none)),
     ([0xDF, 0x28], .fildM64i [] (.base .eax .none)),
     ([0xDF, 0x30], .fbstp [] (.base .eax .none)),
     ([0xDF, 0x38], .fistpM64i [] (.base .eax .none))] = true := by
  decide +kernel

theorem test_decode_DF_reg : decodesTo
    [([0xDF, 0xDE], .reservedDFC0 [] 30#5),
     ([0xDF, 0xE0], .fnstswAx []),
     ([0xDF, 0xE1], .reservedDFE1 []),
     ([0xDF, 0xE3], .reservedDFE2 [] 1#1),
     ([0xDF, 0xE7], .reservedDFE4 [] 3#2),
     ([0xDF, 0xED], .fucomip [] 5),
     ([0xDF, 0xF5], .fcomip [] 5),
     ([0xDF, 0xFE], .reservedDFF8 [] 6#3)] = true := by
  decide +kernel

theorem test_decode_wait : decodesTo
    [([0x9B], .wait []),
     ([0x9B, 0xDB, 0xE3], .finit []),
     ([0x9B, 0xDB, 0xE2], .fclex []),
     ([0x9B, 0xD9, 0x38], .fstcw [] (.base .eax .none)),
     ([0x9B, 0xDD, 0x38], .fstswM16 [] (.base .eax .none)),
     ([0x9B, 0xDF, 0xE0], .fstswAx []),
     ([0x9B, 0xD9, 0x30], .fstenv [] (.base .eax .none)),
     ([0x9B, 0xDD, 0x30], .fsave [] (.base .eax .none))] = true := by
  decide +kernel

/-! #### Bit by bit, a word of each family: 11011 and the low bits, then mod, reg, r/m -/

theorem test_bits_data_transfer : decodesTo [([0b11011001, 0b11000010], .fldSti [] 2)] = true := by decide +kernel

theorem test_bits_constants : decodesTo [([0b11011001, 0b11101011], .fldpi [])] = true := by decide +kernel

theorem test_bits_arithmetic : decodesTo [([0b11011100, 0b11101001], .fsubStiSt0 [] 1)] = true := by decide +kernel

theorem test_bits_compare : decodesTo [([0b11011111, 0b11110001], .fcomip [] 1)] = true := by decide +kernel

theorem test_bits_transcendental : decodesTo [([0b11011001, 0b11111011], .fsincos [])] = true := by decide +kernel

theorem test_bits_control : decodesTo [([0b11011011, 0b11100011], .fninit [])] = true := by decide +kernel

/-- DB /5 with mod = 10B, r/m = 100B, then SIB 10 001 011B (4 times ECX, base EBX), then a 32-bit displacement (R103, R104). -/
theorem test_bits_sib : decodesTo
    [([0b11011011, 0b10101100, 0b10001011, 0x78, 0x56, 0x34, 0x12],
      .fldM80 [] (.sib 2 (some .ecx) .ebx (.d32 0x12345678)))] = true := by decide +kernel

/-- 67H, then D8 /4 with mod = 01B, r/m = 010B: BP + SI and an 8-bit displacement (R105, R106). -/
theorem test_bits_address16 : decodesTo
    [([0x67, 0b11011000, 0b01100010, 0xF0], .fsubM32 [.addrSize] (.base16 .bpsi (.d8 0xF0)))] = true := by decide +kernel

/-- r/m = 110B with mod = 00B is a 16-bit displacement in a 16-bit segment (R105). -/
theorem test_decode_code16 :
    decode false [0xDD, 0x06, 0x34, 0x12] = .ok (.fldM64 [] (.abs16 0x1234), []) := by decide +kernel

theorem test_decode_lock : decode true [0xF0, 0xD9, 0xE8] = .error .lockPrefix := by decide +kernel

theorem test_decode_rep : decode true [0xF3, 0xD9, 0xE8] = .error .repPrefix := by decide +kernel

theorem test_decode_other : decode true [0x90] = .error (.notFpu 0x90) := by decide +kernel

/-- A 9BH that does not stand directly before the instruction is WAIT (R107). -/
theorem test_decode_wait_alone : decode true [0x66, 0x9B, 0xDB, 0xE3] = .ok (.wait [.opSize], [0xDB, 0xE3]) := by
  decide +kernel

/-- The table's own numbering: D8 /0, the first byte most significant (R123). -/
theorem test_decodeTableWord : decodeTableWord 16 0xD800 = some (.faddM32 [] (.base .eax .none)) := by decide +kernel

/-- The step after reset runs the placed word: FNSTCW to the address in EAX. -/
theorem test_withFetchWord : (match step (State.reset.withFetchWord 16 0xD938) with
    | .next t => t.eip == 0x00400002#32
    | _ => false) = true := by decide +kernel

/-! ### Single steps, with the values of spec/95_test_vectors.md -/

/-- A machine as the vectors assume it: the control word `cw`, NE set, and the register stack with these values from ST(0)
on, the other registers empty. -/
def stack (cw : Word16) (l : List Ext) : State :=
  let s : State := { State.reset with cw := cw, ne := true, tags := Vector.replicate 8 .empty }
  l.foldr (fun v s => s.push v) s

/-- The instruction's bytes stand at EIP and the operand's at 1000H. -/
def placed (code operand : List Byte) (s : State) : State :=
  { s with mem := memPlace (memPlace s.mem 0x1000 operand) s.eip.toNat code }

/-- A step of these bytes answers a next state with the property. -/
def ends (code operand : List Byte) (s : State) (p : State → Bool) : Bool :=
  match step (placed code operand s) with
  | .next t => p t
  | _ => false

/-- The exception flags IE, DE, ZE, OE, UE, PE and SF that are 1, by their bit numbers. -/
def raised (t : State) : List Nat := (List.range 7).filter fun k => t.sw.exceptions[k]? == some true

/-- 2.0, as the vectors write it. -/
def two : Ext := 0x40008000000000000000#80

theorem test_fld_m32 : ends [0xD9, 0x05, 0x00, 0x10, 0x00, 0x00] [0x00, 0x20, 0x32, 0x43] (stack 0x037F [])
    (fun t => t.st 0 == 0x4006B220000000000000#80 && t.stTag 0 == .valid && t.sw.top == 7 && raised t == []) = true := by
  decide +kernel

theorem test_fld_m32_snan : ends [0xD9, 0x05, 0x00, 0x10, 0x00, 0x00] [0x00, 0x00, 0xA0, 0x7F] (stack 0x037F [])
    (fun t => t.st 0 == 0x7FFFE000000000000000#80 && raised t == [0]) = true := by decide +kernel

theorem test_fld_m64_denormal : ends [0xDD, 0x05, 0x00, 0x10, 0x00, 0x00] [1] (stack 0x037F [])
    (fun t => t.st 0 == 0x3BCD8000000000000000#80 && raised t == [1]) = true := by decide +kernel

theorem test_fild_m16 : ends [0xDF, 0x05, 0x00, 0x10, 0x00, 0x00] [0x00, 0x80] (stack 0x037F [])
    (fun t => t.st 0 == 0xC00E8000000000000000#80 && raised t == []) = true := by decide +kernel

theorem test_fild_m64 : ends [0xDF, 0x2D, 0x00, 0x10, 0x00, 0x00] (List.replicate 7 0xFF ++ [0x7F]) (stack 0x037F [])
    (fun t => t.st 0 == 0x403DFFFFFFFFFFFFFFFE#80) = true := by decide +kernel

theorem test_fbld : ends [0xDF, 0x25, 0x00, 0x10, 0x00, 0x00] [0x45, 0x23, 0x01] (stack 0x037F [])
    (fun t => t.st 0 == 0x400CC0E4000000000000#80) = true := by decide +kernel

/-- The rounding example of the source, to nearest and down: 420841CCH and 420841CBH. -/
theorem test_fst_m32_nearest : ends [0xD9, 0x15, 0x00, 0x20, 0x00, 0x00] [] (stack 0x037F [0x40048841CB8000000000#80])
    (fun t => t.read 0x2000 4 == 0x420841CC && t.sw.c1 && raised t == [5]) = true := by decide +kernel

theorem test_fst_m32_down : ends [0xD9, 0x15, 0x00, 0x20, 0x00, 0x00] [] (stack 0x077F [0x40048841CB8000000000#80])
    (fun t => t.read 0x2000 4 == 0x420841CB && !t.sw.c1 && raised t == [5]) = true := by decide +kernel

/-- Gradual underflow, masked and exact: 0015C000H; unmasked, nothing is stored. -/
theorem test_fstp_m32_denormal : ends [0xD9, 0x1D, 0x00, 0x20, 0x00, 0x00] [] (stack 0x037F [0x3F7EAE00000000000000#80])
    (fun t => t.read 0x2000 4 == 0x0015C000 && t.sw.top == 0 && raised t == []) = true := by decide +kernel

theorem test_fstp_m32_underflow : ends [0xD9, 0x1D, 0x00, 0x20, 0x00, 0x00] [] (stack 0x036F [0x3F7EAE00000000000000#80])
    (fun t => t.read 0x2000 4 == 0 && t.sw.top == 7 && raised t == [4] && t.sw.es) = true := by decide +kernel

theorem test_fldpi_zero : ends [0xD9, 0xEB] [] (stack 0x0F7F [])
    (fun t => t.st 0 == 0x4000C90FDAA22168C234#80 && raised t == []) = true := by decide +kernel

theorem test_fld1_overflow : ends [0xD9, 0xE8] [] (stack 0x037F (List.replicate 8 one))
    (fun t => t.st 0 == realIndefinite && t.sw.c1 && raised t == [0, 6]) = true := by decide +kernel

theorem test_fadd : ends [0xD8, 0xC1] [] (stack 0x037F [one, two])
    (fun t => t.st 0 == 0x4000C000000000000000#80 && !t.sw.c1 && raised t == []) = true := by decide +kernel

theorem test_fadd_negative_zero : ends [0xD8, 0xC1] [] (stack 0x077F [one, 0xBFFF8000000000000000#80])
    (fun t => t.st 0 == 0x80000000000000000000#80 && raised t == []) = true := by decide +kernel

theorem test_fsubr : ends [0xD8, 0xE9] [] (stack 0x037F [one, two]) (fun t => t.st 0 == one) = true := by decide +kernel

theorem test_fsub_to_st1 : ends [0xDC, 0xE9] [] (stack 0x037F [one, two])
    (fun t => t.st 1 == one && t.st 0 == one) = true := by decide +kernel

theorem test_fdivrp : ends [0xDE, 0xF1] [] (stack 0x037F [one, two])
    (fun t => t.st 0 == 0x3FFE8000000000000000#80 && t.sw.top == 7) = true := by decide +kernel

theorem test_fdiv_third_up : ends [0xD8, 0xF1] [] (stack 0x0B7F [one, 0x4000C000000000000000#80])
    (fun t => t.st 0 == 0x3FFDAAAAAAAAAAAAAAAB#80 && t.sw.c1 && raised t == [5]) = true := by decide +kernel

theorem test_fdiv_by_zero : ends [0xD8, 0xF1] [] (stack 0x037B [one, 0x80000000000000000000#80])
    (fun t => t.st 0 == one && raised t == [2] && t.sw.es && t.sw.b) = true := by decide +kernel

theorem test_fmul_overflow : ends [0xD8, 0xC9] [] (stack 0x037F [0x7FFEFFFFFFFFFFFFFFFF#80, two])
    (fun t => t.st 0 == 0x7FFF8000000000000000#80 && t.sw.c1 && raised t == [3, 5]) = true := by decide +kernel

theorem test_fmul_overflow_unmasked : ends [0xD8, 0xC9] [] (stack 0x0377 [0x7FFEFFFFFFFFFFFFFFFF#80, two])
    (fun t => t.st 0 == 0x1FFFFFFFFFFFFFFFFFFF#80 && !t.sw.c1 && raised t == [3]) = true := by decide +kernel

theorem test_fsqrt_53 : ends [0xD9, 0xFA] [] (stack 0x027F [two])
    (fun t => t.st 0 == 0x3FFFB504F333F9DE6800#80 && t.sw.c1 && raised t == [5]) = true := by decide +kernel

theorem test_fprem : ends [0xD9, 0xF8] [] (stack 0x037F [0xC001E000000000000000#80, two])
    (fun t => t.st 0 == 0xBFFF8000000000000000#80 && (t.sw.c0, t.sw.c3, t.sw.c1, t.sw.c2) == (false, true, true, false)) =
      true := by decide +kernel

theorem test_fprem1 : ends [0xD9, 0xF5] [] (stack 0x037F [0x4001E000000000000000#80, two])
    (fun t => t.st 0 == 0xBFFF8000000000000000#80 && (t.sw.c0, t.sw.c3, t.sw.c1, t.sw.c2) == (true, false, false, false)) =
      true := by decide +kernel

theorem test_frndint : ends [0xD9, 0xFC] [] (stack 0x037F [0xBFFD8000000000000000#80])
    (fun t => t.st 0 == 0x80000000000000000000#80 && !t.sw.c1 && raised t == [5]) = true := by decide +kernel

theorem test_fxtract : ends [0xD9, 0xF4] [] (stack 0x037F [1#80])
    (fun t => t.st 0 == one && t.st 1 == 0xC00D807A000000000000#80 && raised t == [1]) = true := by decide +kernel

theorem test_fchs_snan : ends [0xD9, 0xE0] [] (stack 0x037F [0x7FFFA000000000000000#80])
    (fun t => t.st 0 == 0xFFFFA000000000000000#80 && raised t == []) = true := by decide +kernel

theorem test_ficomp_m32 : ends [0xDA, 0x1D, 0x00, 0x10, 0x00, 0x00] [2] (stack 0x037F [two])
    (fun t => (t.sw.c3, t.sw.c2, t.sw.c0) == (true, false, false) && t.sw.top == 0) = true := by decide +kernel

theorem test_fcom_qnan : ends [0xD8, 0xD1] [] (stack 0x037F [0x7FFFC000000000000000#80, one])
    (fun t => (t.sw.c3, t.sw.c2, t.sw.c0) == (true, true, true) && raised t == [0]) = true := by decide +kernel

theorem test_fucomi_less : ends [0xDB, 0xE9] [] (stack 0x037F [one, two])
    (fun t => t.eflags == { zf := false, pf := false, cf := true } && raised t == []) = true := by decide +kernel

theorem test_fxam_infinity : ends [0xD9, 0xE5] [] (stack 0x037F [0xFFFF8000000000000000#80])
    (fun t => (t.sw.c3, t.sw.c2, t.sw.c1, t.sw.c0) == (false, true, true, true)) = true := by decide +kernel

theorem test_fcos_zero : ends [0xD9, 0xFF] [] (stack 0x037F [0#80]) (fun t => t.st 0 == one && !t.sw.c2) = true := by
  decide +kernel

theorem test_fptan_overflow : ends [0xD9, 0xF2] [] (stack 0x037F (List.replicate 8 one))
    (fun t => t.st 0 == realIndefinite && t.st 1 == one && t.sw.c1 && raised t == [0, 6]) = true := by decide +kernel

theorem test_fsin_out_of_range : ends [0xD9, 0xFE] [] (stack 0x037F [0x403E8000000000000000#80])
    (fun t => t.st 0 == 0x403E8000000000000000#80 && t.sw.c2 && raised t == []) = true := by decide +kernel

theorem test_fscale : ends [0xD9, 0xFD] [] (stack 0x037F [0x4000C000000000000000#80, 0x4000B000000000000000#80])
    (fun t => t.st 0 == 0x4002C000000000000000#80 && raised t == []) = true := by decide +kernel

theorem test_fyl2x_zero_divide : ends [0xD9, 0xF1] [] (stack 0x037F [0#80, 0x4000C000000000000000#80])
    (fun t => t.st 0 == 0xFFFF8000000000000000#80 && t.sw.top == 7 && raised t == [2]) = true := by decide +kernel

theorem test_fninit : ends [0xDB, 0xE3] [] { stack 0x0372 [one] with sw := StatusWord.ofBits 0xB8C1#16 }
    (fun t => t.sw.toBits == 0#16 && t.cw == 0x037F#16 && tagWord t.tags == 0xFFFF#16 && t.fip == 0 && t.fop == 0) =
      true := by decide +kernel

theorem test_fldcw_pending : ends [0xD9, 0x2D, 0x00, 0x10, 0x00, 0x00] [0x7B, 0x03]
    { stack 0x037F [] with sw := StatusWord.ofBits 0x0004#16 }
    (fun t => t.cw == 0x037B#16 && raised t == [2] && t.sw.es && t.sw.b) = true := by decide +kernel

theorem test_fnstsw_ax : ends [0xDF, 0xE0] [] { stack 0x037F [] with sw := StatusWord.ofBits 0x3100#16 }
    (fun t => t.gprs.eax == 0x3100#32) = true := by decide +kernel

theorem test_fclex_pending : ends [0x9B, 0xDB, 0xE2] [] { stack 0x037E [] with sw := StatusWord.ofBits 0xB8C1#16 }
    (fun t => t.event == .mf 0x001B00400000#48 && t.sw.toBits == 0xB8C1#16 && t.eip == 0x00400000#32) = true := by
  decide +kernel

theorem test_wait_ignne : ends [0x9B] []
    { stack 0x037E [] with sw := StatusWord.ofBits 0xB8C1#16, ne := false, ignne := true }
    (fun t => t.event == .none && t.eip == 0x00400001#32) = true := by decide +kernel

theorem test_wait_freeze : ends [0x9B] [] { stack 0x037E [] with sw := StatusWord.ofBits 0xB8C1#16, ne := false }
    (fun t => t.event == .frozen && t.ferr && t.eip == 0x00400000#32) = true := by decide +kernel

theorem test_fincstp : ends [0xD9, 0xF7] [] (stack 0x037F [one]) (fun t => t.sw.top == 0 && t.tags == (stack 0x037F [one]).tags) =
    true := by decide +kernel

theorem test_ffree : ends [0xDD, 0xC1] [] (stack 0x037F [one, two])
    (fun t => tagWord t.tags == 0xCFFF#16 && t.sw.top == 6) = true := by decide +kernel

/-- The image of vector X19, with a control word that has no undefined bits: fourteen bytes. -/
theorem test_fnstenv : ends [0x66, 0xD9, 0x35, 0x00, 0x20, 0x00, 0x00] []
    { stack 0x037F [one] with
      sw := StatusWord.ofBits 0xB881#16, fip := 0x001B00401000#48, fdp := 0x002300402000#48, fop := 0x51E#11 }
    (fun t => t.read 0x2000 14 == 0x00232000001B10003FFFB881037F && t.cw == 0x037F#16 && t.sw.toBits == 0x3801#16) =
      true := by decide +kernel

/-- The registers of vector X20, behind a 16-bit environment. -/
theorem test_fnsave : ends [0x66, 0xDD, 0x35, 0x00, 0x30, 0x00, 0x00] [] (stack 0x037F [one, two])
    (fun t => t.read 0x300E 10 == 0x3FFF8000000000000000 && t.read 0x3018 10 == 0x40008000000000000000 &&
      tagWord t.tags == 0xFFFF#16) = true := by decide +kernel

/-- The image of vector X18 in the 32-bit protected format; the tag of R[7] is that of its contents. -/
theorem test_fldenv : ends [0xD9, 0x25, 0x00, 0x10, 0x00, 0x00]
    [0x72, 0x03, 0, 0, 0x81, 0xB8, 0, 0, 0xFF, 0x3F, 0, 0, 0x00, 0x10, 0x40, 0x00, 0x1B, 0x00, 0x1E, 0x05,
      0x00, 0x20, 0x40, 0x00, 0x23, 0x00, 0, 0] (stack 0x037F [])
    (fun t => t.cw == 0x0372#16 && t.sw.toBits == 0xB881#16 && t.fip == 0x001B00401000#48 &&
      t.fdp == 0x002300402000#48 && t.fop == 0x51E#11 && tagWord t.tags == 0x7FFF#16) = true := by decide +kernel

/-! ### A case that meets the hypotheses of each statement that has some -/

/-- The state of most cases: 1.0 and 2.0 on the stack, everything masked, nothing pending. -/
def w0 : State := stack 0x037F [one, two]

/-- The machine with one value on the stack and `operand` at 1000H. -/
def holding (cw : Word16) (v : Ext) (operand : List Byte) : State := placed [] operand (stack cw [v])

/-- The memory operand at 1000H. -/
def at1000 : MemForm := .abs 0x1000

/-- The outcome is a next state. -/
def isNext : Result → Bool
  | .next _ => true
  | .fault _ => false
  | .refused _ => false

theorem next_of {r : Result} (h : isNext r = true) : ∃ t, r = .next t := by
  cases r with
  | next t => exact ⟨t, rfl⟩
  | fault _ => exact absurd h (by simp [isNext])
  | refused _ => exact absurd h (by simp [isNext])

/-- The invariant by evaluation. -/
def invOk (s : State) : Bool :=
  memWf s.mem && decide (∀ k : Fin 8, s.tags.get k = .empty ∨ s.tags.get k = tagOf (s.regs.get k)) &&
    s.sw.es == summary s.sw s.cw && s.sw.b == s.sw.es && (!s.ferr || s.sw.es)

theorem inv_of {s : State} (h : invOk s = true) : s.Inv := by
  simp only [invOk, Bool.and_eq_true, beq_iff_eq, decide_eq_true_eq] at h
  obtain ⟨⟨⟨⟨h1, h2⟩, h3⟩, h4⟩, h5⟩ := h
  refine ⟨h1, h2, h3, h4, fun hf => ?_⟩
  rw [hf] at h5
  simpa using h5

theorem witness_DecodeOfEncode : (Instr.fldM32 [.fs] (.base .ebp (.d8 4))).wellFormed true = true ∧
    (Instr.fstenv [.opSize] (.abs16 7)).wellFormed false = true := by decide +kernel

theorem witness_DecodedBytesAreTheEncoding : decode true [0xD9, 0xE8, 0x90] = .ok (.fld1 [], [0x90]) := by decide +kernel

theorem witness_StepRunsDecodedInstruction :
    ((placed [0xD9, 0xE8] [] w0).event.stops = false ∧
      decode true (placed [0xD9, 0xE8] [] w0).fetch = .ok (.fld1 [], List.replicate 14 0)) ∧
    ((placed [0xF0, 0xD9, 0xE8] [] w0).event.stops = false ∧
      decode true (placed [0xF0, 0xD9, 0xE8] [] w0).fetch = .error .lockPrefix) := by decide +kernel

/-- The bytes of `i` stand at EIP, up to the end of the offset space. -/
def encodedAt (i : Instr) (s : State) : Prop :=
  s.event.stops = false ∧ i.wellFormed s.code32 = true ∧ s.eip.toNat + i.length ≤ memEnd ∧
    (∀ k, k < i.length → (encode i)[k]? = some (s.byte (s.eip.toNat + k))) ∧
    (i = .wait [] → decodeFused s.code32 (s.fetch.drop 1) = none)

theorem witness_StepRunsEncodedBytes :
    encodedAt (.fld1 []) (placed [0xD9, 0xE8] [] { w0 with eip := 0xFFFFFFFE#32 }) ∧
      encodedAt (.wait []) (placed [0x9B, 0xD9, 0xE8] [] w0) := by
  unfold encodedAt
  decide +kernel

theorem witness_StepKeepsInvariant : (placed [0xD9, 0xE8] [] w0).Inv ∧
    ∃ t, step (placed [0xD9, 0xE8] [] w0) = .next t := ⟨inv_of (by decide +kernel), next_of (by decide +kernel)⟩

/-- Every exception flag and SF is 1, and masked. -/
def flagged : State := { w0 with sw := { w0.sw with ie := true, de := true, ze := true, oe := true, ue := true, pe := true, sf := true } }

theorem witness_ExceptionFlagsAreSticky : (Instr.fld1 []).clearsFlags = false ∧
    (∃ t, exec (.fld1 []) flagged = .next t) ∧ flagged.sw.exceptions = List.replicate 7 true :=
  ⟨rfl, next_of (by decide +kernel), rfl⟩

/-- FNOP; and FCOMI and FYL2XP1 on the processor taken, where neither #D of the one nor #O of the other is listed. -/
theorem witness_FlagsChangeByTheTable : (Instr.fnop []).clearsFlags = false ∧ (∃ t, exec (.fnop []) w0 = .next t) ∧
    .isUnder ∉ (Instr.fnop []).signals w0.params ∧ 0 ∉ ((Instr.fnop []).signals w0.params).map Cond.maskBit ∧
    5 ∉ ((Instr.fnop []).signals w0.params).map Cond.maskBit ∧
    (1 ∉ ((Instr.fcomi [] 1).signals w0.params).map Cond.maskBit ∧ ∃ t, exec (.fcomi [] 1) w0 = .next t) ∧
    3 ∉ ((Instr.fyl2xp1 []).signals w0.params).map Cond.maskBit :=
  ⟨rfl, next_of (by decide +kernel), by decide +kernel, by decide +kernel, by decide +kernel,
    ⟨by decide +kernel, next_of (by decide +kernel)⟩, by decide +kernel⟩

theorem witness_MemoryFrame : (∃ t, exec (.fstM32 [] at1000) w0 = .next t) ∧
    (∀ a n, (Instr.fstM32 [] at1000).stored w0 = some (a, n) → 0x0FFF < a ∨ a + n ≤ 0x0FFF) ∧
    (∀ a n, (Instr.fstM32 [] at1000).stored w0 = some (a, n) → 0x1004 < a ∨ a + n ≤ 0x1004) := by
  refine ⟨next_of (by decide +kernel), ?_, ?_⟩ <;>
    · intro a n h
      have h' : some (0x1000, 4) = some (a, n) := h
      simp only [Option.some.injEq, Prod.mk.injEq] at h'
      omega

theorem witness_StackFrame : ∃ t, exec (.fcompp []) w0 = .next t := next_of (by decide +kernel)

theorem witness_HostAndControlWordFrame : (∃ t, exec (.fld1 []) w0 = .next t) ∧ (Instr.fld1 []).writesAx = false ∧
    (Instr.fld1 []).isFcomi = false ∧ (Instr.fld1 []).writesCw = false := ⟨next_of (by decide +kernel), rfl, rfl, rfl⟩

theorem witness_PointersRecorded :
    ((∃ t, exec (.fnstcw [] at1000) w0 = .next t) ∧ (Instr.fnstcw [] at1000).keepsPointers = true) ∧
    (∃ t, exec (.fldM32 [] at1000) w0 = .next t) ∧ (Instr.fldM32 [] at1000).keepsPointers = false ∧
      (Instr.fldM32 [] at1000).replacesState = false ∧ w0.pending = .clear ∧
      (Instr.fldM32 [] at1000).memForm = some at1000 :=
  ⟨⟨next_of (by decide +kernel), rfl⟩, next_of (by decide +kernel), rfl, rfl, by decide +kernel, rfl⟩

theorem witness_SignalSetsFlags : w0.masked .ia = true ∧ (stack 0x037E []).masked .ia = false ∧
    ({ stack 0x037E [] with ferr := true } : State).ferr = true ∧ (stack 0x037E []).ne = true := by decide +kernel

/-- An unmasked invalid operation is pending. -/
def pendingIe : State := { stack 0x037E [] with sw := StatusWord.ofBits 0x8081#16 }

theorem witness_CheckPendingHandsOver :
    ((Instr.fld1 []).present pendingIe.params = true ∧ (Instr.fld1 []).nonWaiting = false ∧ pendingIe.sw.es = true ∧
      pendingIe.ne = true ∧ ({ pendingIe with ne := false } : State).ignne = false) ∧
    (w0.sw.es = false ∧ ∃ t, exec (.fld1 []) w0 = .next t) ∧
    (∃ t, exec (.fld1 []) { pendingIe with ne := false, ignne := true } = .next t) ∧
    ((Instr.fnstswAx []).nonWaiting = true ∧ ∃ t, exec (.fnstswAx []) pendingIe = .next t) :=
  ⟨by decide +kernel, ⟨by decide +kernel, next_of (by decide +kernel)⟩, next_of (by decide +kernel), rfl,
    next_of (by decide +kernel)⟩

theorem witness_ReservedEncodingsRefused : (Instr.reservedD9D1 []).present Params.taken = false ∧
    (Instr.fcmovb [] 1).present { Params.taken with hasFcmov := false } = false ∧
    (Instr.fcomi [] 1).present { Params.taken with generation := .pentium } = false := by decide +kernel

/-- A form of register operands in a state, its precision given by its value. -/
theorem form_toSt0 (k : ArithKind) (s : State) (i : StIdx) {o : Option Nat} (h : precOf s.cw = o) :
    ArithForm k s (k.toSt0 [] i) none (s.stOperand 0#3) (s.stOperand i) o st0 := h ▸ .toSt0 [] i

/-- The operands of such a form are two numbers in registers that are not empty. -/
def numbers (s : State) (i : StIdx) : Bool :=
  s.pending == .clear && !(s.stOperand 0#3).empty && !(s.stOperand i).empty && isNumber (s.stOperand 0#3).val &&
    isNumber (s.stOperand i).val && !(s.stOperand 0#3).denormal && !(s.stOperand i).denormal

/-- One byte past the end for two, eight and ten bytes and for both images; FADD of two numbers, and FSQRT, with PC = 01B. -/
theorem witness_PastEndAndReservedPrecisionStop :
    (w0.pending = .clear ∧ w0.inRange (.abs 0xFFFFFFFF) ((Instr.fldcw [] (.abs 0xFFFFFFFF)).operandBytes w0) = false ∧
      w0.inRange (.abs 0xFFFFFFF9) ((Instr.fldM64 [] (.abs 0xFFFFFFF9)).operandBytes w0) = false ∧
      w0.inRange (.abs 0xFFFFFFF7) ((Instr.fbld [] (.abs 0xFFFFFFF7)).operandBytes w0) = false ∧
      w0.inRange (.abs 0xFFFFFFE5) ((Instr.fldenv [] (.abs 0xFFFFFFE5)).operandBytes w0) = false ∧
      w0.inRange (.abs 0xFFFFFF95) ((Instr.frstor [] (.abs 0xFFFFFF95)).operandBytes w0) = false ∧
      (Instr.frstor [] (.abs 0xFFFFFF95)).isReserved = false) ∧
    (ArithForm .add (stack 0x017F [one, two]) (.faddSt0Sti [] 1) none ((stack 0x017F [one, two]).stOperand 0#3)
        ((stack 0x017F [one, two]).stOperand 1#3) none st0 ∧ numbers (stack 0x017F [one, two]) 1 = true ∧
      ArithKind.add.result .nearest one two = .number (exactNum (addNum (valOf one) (valOf two)))) ∧
    (let s := stack 0x017F [two];
      s.pending = .clear ∧ s.stTag 0#3 ≠ .empty ∧ precOf s.cw = none ∧ isFiniteNonzero (s.st 0#3) = true ∧
        signOf (s.st 0#3) = false ∧ isDenormal (s.st 0#3) = false) :=
  ⟨by decide +kernel, ⟨form_toSt0 .add _ 1 (by decide +kernel), by decide +kernel, by decide +kernel⟩, by decide +kernel⟩

/-- 1/3, and the square root of 9 on the spacing 2, a tie that goes to the even multiple. -/
theorem witness_RoundGridSelectsNeighbour :
    (0 < 1 ∧ 0 < 3 ∧ (2 : ℚ) ^ (-2 : Int) ≤ (1 : Nat) / (3 : Nat) * (2 : ℚ) ^ (0 : Int) ∧
      ((1 : Nat) / (3 : Nat) * (2 : ℚ) ^ (0 : Int) : ℚ) < (2 : ℚ) ^ (-2 + 1 : Int)) ∧
    (2 : ℝ) ^ (0 : Int) ≤ Real.sqrt (1 : Nat) * (2 : ℝ) ^ (0 : Int) ∧
      Real.sqrt (1 : Nat) * (2 : ℝ) ^ (0 : Int) < (2 : ℝ) ^ (0 + 1 : Int) ∧
      (roundGrid { neg := false, mag := .root 9 0 } 1 .nearest).n = 2 :=
  ⟨by norm_num, by norm_num [Real.sqrt_one], by norm_num [Real.sqrt_one], by decide +kernel⟩

/-- The bounds of each format: the largest and least single-real and double-real, and the conversions at both ends. -/
theorem witness_FormatsEncodeTheirValues :
    (classOf one = .normal ∧ classOf 1#80 = .denormal ∧ classOf 0#80 = .zero ∧
      classOf 0x00008000000000000000#80 = .pseudoDenormal) ∧
    ((0x7F7FFFFF#32).extractLsb' 23 8 ≠ 0xFF#8 ∧ (1#32).extractLsb' 23 8 = 0#8 ∧
      (0x7FEFFFFFFFFFFFFF#64).extractLsb' 52 11 ≠ 0x7FF#11 ∧ (1#64).extractLsb' 52 11 = 0#11 ∧
      (2 ^ 64 - 1 : Int).natAbs ≤ 2 ^ 64 - 1 ∧ 10 ^ 18 - 1 < 10 ^ 18) ∧
    (((2 ^ 40 : Nat) : ℚ) * (2 : ℚ) ^ (-189 : Int) = ((1 : Nat) : ℚ) * (2 : ℚ) ^ (-149 : Int) ∧ 1 < 2 ^ 24) ∧
    (((2 ^ 24 - 1 : Nat) : ℚ) * (2 : ℚ) ^ (104 : Int) = ((2 ^ 24 - 1 : Nat) : ℚ) * (2 : ℚ) ^ (104 : Int) ∧
      2 ^ 24 - 1 < 2 ^ 24 ∧ 2 ^ 53 - 1 < 2 ^ 53) ∧
    (0xC000000000000001#64).getLsbD 63 = true := by
  refine ⟨by decide +kernel, by decide +kernel, ⟨?_, by norm_num⟩, ⟨rfl, by norm_num, by norm_num⟩, by decide +kernel⟩
  rw [show (-149 : Int) = 40 + -189 by norm_num, zpow_add₀ (by norm_num)]
  norm_num

theorem witness_CompareOrdersValues : isNumber one = true ∧ isNumber (infinity true) = true ∧ isInf one = false ∧
    isInf (infinity true) = true ∧ isNumber 0x7FFEFFFFFFFFFFFFFFFF#80 = true ∧ isInf 0x7FFEFFFFFFFFFFFFFFFF#80 = false := by
  decide +kernel

theorem witness_NanResultByTheTable :
    (isNan 0x7FFFC000000000000001#80 = true ∧ classOf 0x7FFFC000000000000001#80 = .qnan) ∧
      (isNan 0x7FFFA000000000000000#80 = true ∧ classOf 0x7FFFA000000000000000#80 = .snan) ∧ isNan one = false ∧
      (classOf 0x7FFF9000000000000000#80 = .snan ∧
        (sigOf 0x7FFF9000000000000000#80).toNat < (sigOf 0x7FFFA000000000000000#80).toNat) := by decide +kernel

theorem witness_LoadRealPushes :
    ((holding 0x037F one [0, 0, 0xC0, 0x3F]).pending = .clear ∧
      (holding 0x037F one [0, 0, 0xC0, 0x3F]).stTag 7#3 = .empty ∧
      (holding 0x037F one [0, 0, 0xC0, 0x3F]).inRange at1000 4 = true ∧
      classOf ((holding 0x037F one [0, 0, 0xC0, 0x3F]).single 0x1000).val ≠ .snan) ∧
    (((holding 0x037F one [1]).double 0x1000).denormal = true ∧ (holding 0x037F one [1]).masked .d = true ∧
      classOf ((holding 0x037F one [1]).double 0x1000).val ≠ .snan) := by decide +kernel

theorem witness_LoadUncheckedPushes : w0.pending = .clear ∧ w0.stTag 7#3 = .empty ∧ w0.inRange at1000 10 = true ∧
    w0.inRange (.abs 0xFFFFFFF6) 10 = true ∧ extOfBcd (BitVec.ofNat 80 (w0.read 0x1000 10)) = some (zero false) ∧
    w0.stTag 1#3 ≠ .empty ∧ 9 < (holding 0x037F one [0x0A]).read 0x1000 10 / 16 ^ 0 % 16 ∧
    9 < (holding 0x037F one [0, 0, 0, 0, 0, 0, 0, 0, 0xF0]).read 0x1000 10 / 16 ^ 17 % 16 ∧
    (holding 0x037F one [0x0A]).pending = .clear ∧ (holding 0x037F one [0x0A]).stTag 7#3 = .empty := by decide +kernel

theorem witness_LoadConstantPushes : w0.pending = .clear ∧ w0.stTag 7#3 = .empty := by decide +kernel

/-- Eight registers that are not empty, with ten bytes in range. -/
theorem witness_PushOverflowsStack : (stack 0x037F (List.replicate 8 one)).pending = .clear ∧
    (stack 0x037F (List.replicate 8 one)).stTag 7#3 ≠ .empty ∧ (stack 0x037F (List.replicate 8 one)).stTag 0#3 ≠ .empty ∧
    (stack 0x037F (List.replicate 8 one)).inRange (.abs 0xFFFFFFF6) 10 = true ∧
    (stack 0x037F (List.replicate 8 one)).stTag 1#3 ≠ .empty ∧
    (stack 0x037F (List.replicate 8 one)).masked .isOver = true ∧
    (stack 0x037E (List.replicate 8 one)).masked .isOver = false := by decide +kernel

/-- Memory canonical, nothing pending, ST(0) not empty, room for ten bytes at 1000H. -/
def storable (s : State) : Bool :=
  memWf s.mem && s.pending == .clear && !(s.stEmpty 0#3) && s.inRange at1000 10

/-- The largest and the smallest normal number of the single-real format; 2^128 (overflow), 2^-127 (underflow), and a
denormal operand. -/
theorem witness_StoreRealRounds :
    (storable (stack 0x037F [0x407EFFFFFF0000000000#80]) = true ∧ isFiniteNonzero 0x407EFFFFFF0000000000#80 = true ∧
      InRange fmtSingle (roundP (exactNum (valOf 0x407EFFFFFF0000000000#80)) 24 .nearest)) ∧
    (storable (stack 0x037F [0x3F818000000000000000#80]) = true ∧ isFiniteNonzero 0x3F818000000000000000#80 = true ∧
      InRange fmtSingle (roundP (exactNum (valOf 0x3F818000000000000000#80)) 24 .nearest)) ∧
    (storable (stack 0x0377 [0x407F8000000000000000#80]) = true ∧ isFiniteNonzero 0x407F8000000000000000#80 = true ∧
      fmtSingle.emax < (roundP (exactNum (valOf 0x407F8000000000000000#80)) 24 .nearest).exponent ∧
      (stack 0x0377 [one]).masked .o = false ∧ w0.masked .o = true) ∧
    (storable (stack 0x036F [0x3F808000000000000000#80]) = true ∧ isFiniteNonzero 0x3F808000000000000000#80 = true ∧
      (roundP (exactNum (valOf 0x3F808000000000000000#80)) 24 .nearest).exponent < fmtSingle.emin ∧
      (stack 0x036F [one]).masked .u = false ∧ w0.masked .u = true) ∧
    storable (stack 0x037D [1#80]) = true ∧ isDenormal 1#80 = true ∧ isFiniteNonzero 1#80 = true ∧
      (stack 0x037D [1#80]).masked .d = false ∧ w0.masked .d = true := by
  unfold InRange
  decide +kernel

/-- Each class, and an empty ST(0), with #I masked and unmasked. -/
theorem witness_StoreRealOfSpecialValues :
    (storable (stack 0x037F [zero true]) = true ∧ classOf (zero true) = .zero) ∧
      (storable (stack 0x037F [infinity true]) = true ∧ classOf (infinity true) = .infinity) ∧
      (storable (stack 0x037F [realIndefinite]) = true ∧ classOf realIndefinite = .qnan) ∧
      (storable (stack 0x037E [0x7FFFA000000000000000#80]) = true ∧ classOf 0x7FFFA000000000000000#80 = .snan) ∧
      (storable (stack 0x037F [0x3FFF0000000000000001#80]) = true ∧ isUnsupported 0x3FFF0000000000000001#80 = true) ∧
      ((stack 0x037F []).stTag 0#3 = .empty ∧ (stack 0x037F []).pending = .clear ∧ memWf (stack 0x037F []).mem = true ∧
        (stack 0x037F []).inRange at1000 8 = true) ∧
      w0.masked .ia = true ∧ (stack 0x037E []).masked .ia = false := by decide +kernel

/-- Both zeros, 32767 and -32768, and 10^18 - 1. -/
theorem witness_StoreIntegerRounds :
    (storable (stack 0x037F [zero false]) = true ∧ isZero (zero false) = true) ∧
    (storable (stack 0x037F [zero true]) = true ∧ isZero (zero true) = true) ∧
    (storable (stack 0x037F [extOfInt 32767]) = true ∧ isFiniteNonzero (extOfInt 32767) = true ∧
      (roundInt (valOf (extOfInt 32767)) .nearest).n = 2 ^ 15 - 1) ∧
    (storable (stack 0x037F [extOfInt (-32768)]) = true ∧ isFiniteNonzero (extOfInt (-32768)) = true ∧
      (roundInt (valOf (extOfInt (-32768))) .nearest).n = 2 ^ 15 ∧ signOf (extOfInt (-32768)) = true) ∧
    (storable (stack 0x037F [extOfInt (10 ^ 18 - 1)]) = true ∧ isFiniteNonzero (extOfInt (10 ^ 18 - 1)) = true ∧
      (roundInt (valOf (extOfInt (10 ^ 18 - 1))) .nearest).n < 10 ^ 18) := by decide +kernel

/-- A NaN, an unsupported value, an infinity, 32768 and -32769 for sixteen bits, 10^18 for FBSTP, and an empty ST(0). -/
theorem witness_StoreIntegerInvalid :
    (storable (stack 0x037F [realIndefinite]) = true ∧ isNumber realIndefinite = false) ∧
      (storable (stack 0x037E [0x3FFF0000000000000001#80]) = true ∧ isNumber 0x3FFF0000000000000001#80 = false) ∧
      (storable (stack 0x037E [infinity false]) = true ∧ isInf (infinity false) = true) ∧
      (storable (stack 0x037F [extOfInt 32768]) = true ∧ isFiniteNonzero (extOfInt 32768) = true ∧
        (roundInt (valOf (extOfInt 32768)) .nearest).n = 2 ^ 15 ∧ signOf (extOfInt 32768) = false) ∧
      (storable (stack 0x037F [extOfInt (-32769)]) = true ∧ isFiniteNonzero (extOfInt (-32769)) = true ∧
        (roundInt (valOf (extOfInt (-32769))) .nearest).n = 2 ^ 15 + 1) ∧
      (storable (stack 0x037F [extOfInt (10 ^ 18)]) = true ∧ isFiniteNonzero (extOfInt (10 ^ 18)) = true ∧
        10 ^ 18 ≤ (roundInt (valOf (extOfInt (10 ^ 18))) .nearest).n) ∧
      ((stack 0x037F []).stTag 0#3 = .empty ∧ (stack 0x037F []).pending = .clear ∧ memWf (stack 0x037F []).mem = true ∧
        (stack 0x037F []).inRange at1000 10 = true) := by decide +kernel

theorem witness_StoreUncheckedCopies : storable w0 = true ∧ memWf (stack 0x037F []).mem = true ∧
    (stack 0x037F []).pending = .clear ∧ (stack 0x037F []).stTag 0#3 = .empty ∧
    (stack 0x037F []).inRange (.abs 0xFFFFFFF6) 10 = true ∧ w0.inRange (.abs 0xFFFFFFF6) 10 = true := by decide +kernel

theorem witness_ExchangeSwaps : w0.pending = .clear ∧ w0.stTag 0#3 ≠ .empty ∧ w0.stTag 1#3 ≠ .empty ∧
    w0.stTag 2#3 = .empty := by decide +kernel

theorem witness_ConditionalMoveCopies : w0.params.hasFcmov = true ∧ w0.pending = .clear ∧ w0.stTag 1#3 ≠ .empty := by
  decide +kernel

theorem witness_ArithmeticDeliversRoundedResult :
    (ArithForm .add w0 (.faddSt0Sti [] 1) none (w0.stOperand 0#3) (w0.stOperand 1#3) (some 64) st0 ∧
      numbers w0 1 = true ∧ ArithKind.add.result .nearest one two = .number (exactNum (addNum (valOf one) (valOf two))) ∧
      InRange fmtExt (roundP (exactNum (addNum (valOf one) (valOf two))) 64 .nearest)) ∧
    (numbers (stack 0x037F [infinity false, two]) 1 = true ∧
      ArithKind.add.result .nearest (infinity false) two = .exact (infinity false)) :=
  ⟨⟨form_toSt0 .add w0 1 (by decide +kernel), by decide +kernel, by decide +kernel, by unfold InRange; decide +kernel⟩,
    by decide +kernel⟩

/-- The number case at a rounding, and operands of each of the other cases. -/
theorem witness_ArithmeticExactValue : isNumber one = true ∧ isNumber two = true ∧
    (exactNum (addNum (valOf one) (valOf two))).mag = .ratio (2 ^ 63 + 2 ^ 64) 1 (-63) ∧
    binOp .add .nearest one two = .number (exactNum (addNum (valOf one) (valOf two))) ∧
    (isFiniteNonzero one = true ∧ isFiniteNonzero (negate one) = true ∧ isInf one = false ∧
      binOp .add .nearest one (negate one) = .exact (zero false)) ∧
    (isNumber (infinity true) = true ∧ isInf (infinity true) = true ∧ isNumber (zero true) = true ∧
      isZero (zero true) = true ∧ signOf (zero true) = true ∧ isInf (infinity false) = true) := by decide +kernel

theorem witness_ArithmeticExactValue_zeros : ratOf (zero true) + ratOf (zero false) = 0 ∧
    ratOf (zero true) - ratOf (zero true) = 0 := by
  have h : ∀ n, ratOf (zero n) = 0 := fun n => by
    have : (valOf (zero n)).n = 0 := by cases n <;> decide +kernel
    simp [ratOf, Num.toRat, this]
  simp [h]

/-- No register is empty but ST(3): a push of an empty ST(3) overflows as well. -/
def fullBut3 : State :=
  let s := stack 0x037F (List.replicate 8 one)
  { s with tags := s.tags.set (3#3).toFin .empty }

/-- ST(2) of two values, and each source of a register instruction, empty; FLD of an empty register with and without room. -/
theorem witness_EmptySourceUnderflowsStack :
    (ArithForm .div w0 (.fdivSt0Sti [] 2) none (w0.stOperand 0#3) (w0.stOperand 2#3) (some 64) st0 ∧
      w0.pending = .clear ∧ ((w0.stOperand 0#3).empty || (w0.stOperand 2#3).empty) = true) ∧
    (∃ l ∈ [0#3, 1#3], (stack 0x037F [one]).stTag l = .empty) ∧ (∃ l ∈ [0#3], (stack 0x037E []).stTag l = .empty) ∧
    ((stack 0x037F [one]).stTag 2#3 = .empty ∧ (stack 0x037F [one]).stTag 7#3 = .empty ∧
      (stack 0x037F [one]).params.hasFcmov = true) ∧
    (fullBut3.pending = .clear ∧ fullBut3.stTag 3#3 = .empty ∧ fullBut3.stTag 7#3 ≠ .empty) :=
  ⟨⟨form_toSt0 .div w0 2 (by decide +kernel), by decide +kernel, by decide +kernel⟩, by decide +kernel, by decide +kernel,
    by decide +kernel, by decide +kernel⟩

/-- ST(0) is `v` above 1.0, with room for a push and nothing pending. -/
def above (v : Ext) : Bool :=
  let s := stack 0x037F [v, one]
  s.pending == .clear && s.st 0#3 == v && !(s.stEmpty 0#3) && !(s.stEmpty 1#3) && s.stEmpty 7#3

theorem witness_ArithmeticSpecialResponses :
    (ArithForm .div w0 (.fdivSt0Sti [] 1) none (w0.stOperand 0#3) (w0.stOperand 1#3) (some 64) st0 ∧
      (w0.pending = .clear ∧ (w0.stOperand 0#3).empty = false ∧ (w0.stOperand 1#3).empty = false) ∧
      isUnsupported 0x3FFF0000000000000001#80 = true ∧
      (isUnsupported 0x7FFFA000000000000000#80 = false ∧ classOf 0x7FFFA000000000000000#80 = .snan) ∧
      (isUnsupported realIndefinite = false ∧ classOf realIndefinite = .qnan) ∧
      (numbers (stack 0x037F [zero false, zero true]) 1 = true ∧
        ArithKind.div.result .nearest (zero false) (zero true) = .invalid) ∧
      (numbers (stack 0x037F [one, zero true]) 1 = true ∧
        ArithKind.div.result .nearest one (zero true) = .zeroDivide true) ∧
      ((stack 0x037D [1#80, one]).masked .d = false ∧ ((stack 0x037D [1#80, one]).stOperand 0#3).denormal = true ∧
        isNan 1#80 = false ∧ ArithKind.add.result .nearest 1#80 one = .number (exactNum (addNum (valOf 1#80) (valOf one))))) ∧
    (above 0x3FFF0000000000000001#80 = true ∧ above 0x7FFFA000000000000000#80 = true ∧ above realIndefinite = true) ∧
    (let s := stack 0x037D [1#80, one];
      s.pending = .clear ∧ s.stTag 0#3 ≠ .empty ∧ s.stTag 1#3 ≠ .empty ∧ s.stTag 7#3 = .empty ∧ s.masked .d = false ∧
        isDenormal (s.st 0#3) = true ∧ isNan (s.st 0#3) = false ∧ isNan (s.st 1#3) = false ∧
        isUnsupported (s.st 0#3) = false ∧ isUnsupported (s.st 1#3) = false ∧
        (registerOps []).all (fun x => !rejects (s.st 0#3) (s.st 1#3) x.1) = true) :=
  ⟨⟨form_toSt0 .div w0 1 (by decide +kernel), by decide +kernel⟩, by decide +kernel, by decide +kernel⟩

/-- Twice the largest number, half the least normal one, and half the least denormal. -/
theorem witness_ArithmeticOverflowAndUnderflow :
    (numbers (stack 0x037F [0x7FFEFFFFFFFFFFFFFFFF#80, two]) 1 = true ∧
      ArithKind.mul.result .nearest 0x7FFEFFFFFFFFFFFFFFFF#80 two =
        .number (exactNum (mulNum (valOf 0x7FFEFFFFFFFFFFFFFFFF#80) (valOf two))) ∧
      16383 < (roundP (exactNum (mulNum (valOf 0x7FFEFFFFFFFFFFFFFFFF#80) (valOf two))) 64 .nearest).exponent) ∧
    (numbers (stack 0x037F [0x00018000000000000000#80, two]) 1 = true ∧
      ArithKind.div.result .nearest 0x00018000000000000000#80 two =
        .number (divNum (valOf 0x00018000000000000000#80) (valOf two)) ∧
      (roundP (divNum (valOf 0x00018000000000000000#80) (valOf two)) 64 .nearest).exponent < -16382) ∧
    (let s := stack 0x037F [1#80, two];
      s.pending = .clear ∧ (s.stOperand 0#3).empty = false ∧ (s.stOperand 1#3).empty = false ∧ isNumber 1#80 = true ∧
        (s.stOperand 0#3).denormal = true ∧ s.masked .d = true ∧
        ArithKind.div.result .nearest 1#80 two = .number (divNum (valOf 1#80) (valOf two)) ∧
        (roundP (divNum (valOf 1#80) (valOf two)) 64 .nearest).exponent < -16382) := by decide +kernel

theorem witness_SignOperationsChangeSignBit : (w0.pending = .clear ∧ w0.stTag 0#3 ≠ .empty) ∧
    (stack 0x037F []).pending = .clear ∧ (stack 0x037F []).stTag 0#3 = .empty := by decide +kernel

/-- A positive number and the least denormal; a zero and +infinity; a negative number and -infinity. -/
theorem witness_SquareRootDelivers :
    (w0.pending = .clear ∧ w0.stTag 0#3 ≠ .empty ∧ precOf w0.cw = some 64 ∧
      isFiniteNonzero (w0.st 0#3) = true ∧ signOf (w0.st 0#3) = false) ∧
    (isDenormal ((stack 0x037F [1#80]).st 0#3) = true ∧ (stack 0x037F [1#80]).masked .d = true) ∧
    isZero ((stack 0x037F [zero true]).st 0#3) = true ∧ (stack 0x037F [infinity false]).st 0#3 = infinity false ∧
    (signOf ((stack 0x037F [negate one]).st 0#3) = true ∧ isFiniteNonzero ((stack 0x037F [negate one]).st 0#3) = true) ∧
    (signOf ((stack 0x037E [infinity true]).st 0#3) = true ∧ isInf ((stack 0x037E [infinity true]).st 0#3) = true) := by
  decide +kernel

/-- A complete remainder, at the exponent difference 63, and a partial one, at 64; a tiny remainder of denormals with U
unmasked; then zeros and infinities. -/
theorem witness_PartialRemainderDelivers : w0.pending = .clear ∧ w0.stTag 0#3 ≠ .empty ∧ w0.stTag 1#3 ≠ .empty ∧
    isFiniteNonzero 0x403E8000000000000000#80 = true ∧ isFiniteNonzero 0x403F8000000000000000#80 = true ∧
    isFiniteNonzero one = true ∧ exponentOf (valOf 0x403E8000000000000000#80) - exponentOf (valOf one) = 63 ∧
    exponentOf (valOf 0x403F8000000000000000#80) - exponentOf (valOf one) = 64 ∧
    (isNumber (zero true) = true ∧ isZero (zero true) = true ∧ isNumber (infinity true) = true ∧
      isInf (infinity true) = true ∧ isFiniteNonzero 1#80 = true ∧ isDenormal 1#80 = true ∧ w0.masked .d = true) ∧
    (isFiniteNonzero 3#80 = true ∧ isFiniteNonzero 2#80 = true ∧ (stack 0x036F [3#80, 2#80]).masked .u = false ∧
      (stack 0x036F [3#80, 2#80]).masked .d = true ∧ (remainder .truncate (valOf 3#80) (valOf 2#80)).r.n ≠ 0 ∧
      exponentOf (remainder .truncate (valOf 3#80) (valOf 2#80)).r < -16382) := by
  decide +kernel

/-- 7 by 2, the tie 1 by 2, and a partial remainder at the exponent difference 64. -/
theorem witness_RemainderIsExact : 0 < (valOf 0x4001E000000000000000#80).n ∧ 0 < (valOf two).n ∧ 0 < (valOf one).n ∧
    (remainder .truncate (valOf 0x4001E000000000000000#80) (valOf two)).complete = true ∧
    (remainder .nearest (valOf 0x4001E000000000000000#80) (valOf two)).complete = true ∧
    (remainder .nearest (valOf one) (valOf two)).quot = 0 ∧
    (remainder .truncate (valOf 0x403F8000000000000000#80) (valOf one)).complete = false := by decide +kernel

/-- A number, a denormal, a zero and an infinity. -/
theorem witness_RoundAndExtractDeliver :
    (w0.pending = .clear ∧ w0.stTag 0#3 ≠ .empty ∧ isFiniteNonzero (w0.st 0#3) = true ∧ w0.stTag 7#3 = .empty) ∧
    (isFiniteNonzero ((stack 0x037F [1#80]).st 0#3) = true ∧ isDenormal ((stack 0x037F [1#80]).st 0#3) = true ∧
      (stack 0x037F [1#80]).masked .d = true) ∧
    (isZero ((stack 0x037B [zero true]).st 0#3) = true ∧ (stack 0x037B [zero true]).masked .z = false ∧
      (stack 0x037B [zero true]).stTag 7#3 = .empty) ∧
    isInf ((stack 0x037F [infinity true]).st 0#3) = true := by decide +kernel

theorem witness_CompareSetsConditionCodes : w0.pending = .clear ∧ w0.inRange (.abs 0xFFFFFFF8) 8 = true ∧
    w0.stTag 0#3 ≠ .empty ∧ (w0.stOperand 1#3).empty = false ∧ (w0.double 0x1000).empty = false ∧
    (w0.int 0x1000 2).empty = false ∧ isNumber (w0.st 0#3) = true ∧ isNumber (w0.double 0x1000).val = true ∧
    isNumber (w0.stOperand 1#3).val = true ∧ (isDenormal (w0.st 0#3) || (w0.stOperand 1#3).denormal) = false ∧
    cmpExt one two = .less ∧ cmpExt two one = .greater ∧ cmpExt (zero true) (zero false) = .equal ∧
    (let s := stack 0x037D [1#80, one];
      s.pending = .clear ∧ s.stTag 0#3 ≠ .empty ∧ (s.stOperand 1#3).empty = false ∧ isNumber (s.st 0#3) = true ∧
        isNumber (s.stOperand 1#3).val = true ∧ isDenormal (s.st 0#3) = true ∧ s.masked .d = false) := by decide +kernel

/-- The processor taken, and one that reports a denormal operand. -/
theorem witness_CompareSetsEflags :
    (w0.params.hasFcomi = true ∧ w0.pending = .clear ∧ w0.stTag 0#3 ≠ .empty ∧ w0.stTag 1#3 ≠ .empty ∧
      isNumber (w0.st 0#3) = true ∧ isNumber (w0.st 1#3) = true ∧
      (w0.params.fcomiSignalsD && (isDenormal (w0.st 0#3) || isDenormal (w0.st 1#3))) = false) ∧
    (let s : State := { stack 0x037F [1#80, one] with params := { Params.taken with fcomiSignalsD := true } };
      s.params.hasFcomi = true ∧ s.pending = .clear ∧ s.stTag 0#3 ≠ .empty ∧ s.stTag 1#3 ≠ .empty ∧
        (s.params.fcomiSignalsD && (isDenormal (s.st 0#3) || isDenormal (s.st 1#3))) = true ∧ s.masked .d = true) ∧
    ({ stack 0x037D [1#80, one] with params := { Params.taken with fcomiSignalsD := true } } : State).masked .d = false := by
  decide +kernel

/-- An SNaN, a QNaN and an unsupported value against 1.0, a single-real NaN in memory, and an empty ST(1). -/
theorem witness_CompareUnordered :
    (above 0x7FFFA000000000000000#80 = true ∧ above realIndefinite = true ∧ above 0x3FFF0000000000000001#80 = true) ∧
    invalidCompare .unordered 0x7FFFA000000000000000#80 one = true ∧ invalidCompare .ordered realIndefinite one = true ∧
    (invalidCompare .unordered realIndefinite one = false ∧ (isNan realIndefinite || isNan one) = true) ∧
    (invalidCompare .unordered 0x3FFF0000000000000001#80 one = true ∧ w0.params.hasFcomi = true) ∧
    ((holding 0x037F one [0, 0, 0xC0, 0x7F]).pending = .clear ∧
      (holding 0x037F one [0, 0, 0xC0, 0x7F]).inRange at1000 4 = true ∧
      invalidCompare .ordered one ((holding 0x037F one [0, 0, 0xC0, 0x7F]).single 0x1000).val = true) ∧
    ((stack 0x037F [one]).pending = .clear ∧
      (((stack 0x037F [one]).stOperand 0#3).empty || ((stack 0x037F [one]).stOperand 1#3).empty) = true) := by
  decide +kernel

theorem witness_ExamineReportsClass : w0.pending = .clear := by decide +kernel

/-- The largest magnitude below 2^63, and 2^63; a zero and an infinity. -/
theorem witness_TrigonometricDeliver : w0.pending = .clear ∧ w0.stTag 0#3 ≠ .empty ∧ w0.stTag 7#3 = .empty ∧
    InTrigRange 0x403DFFFFFFFFFFFFFFFF#80 ∧ (isDenormal 1#80 = true ∧ w0.masked .d = true ∧ InTrigRange 1#80) ∧
    (isFiniteNonzero 0x403E8000000000000000#80 = true ∧ 63 ≤ exponentOf (valOf 0x403E8000000000000000#80)) ∧
    isZero (zero true) = true ∧ (isInf (infinity true) = true ∧ (stack 0x037E []).masked .ia = false) := by
  unfold InTrigRange
  decide +kernel

/-- The exact result 1.0 for the function value 1. -/
theorem witness_DeliveryKeepsAccuracy :
    Accurate w0.params.generation (rcOf w0.cw) 1 { neg := false, frac := 0#63, exp := -63, inexact := false, up := false } ∧
      InRange fmtExt (roundedOf { neg := false, frac := 0#63, exp := -63, inexact := false, up := false }) := by
  have h : approxReal { neg := false, frac := 0#63, exp := -63, inexact := false, up := false } = 1 := by
    norm_num [approxReal]
  refine ⟨⟨fun k _ _ => ?_, by rw [h]; simp, by rw [h]; simp⟩, by unfold InRange; decide +kernel⟩
  have g : w0.params.generation = .pentiumPro := by decide +kernel
  rw [h, g]
  simp only [WithinUlps]
  split <;> norm_num

/-- x = 0.25 and y = 1.0; 0.25 lies in the documented domain of FYL2XP1; F2XM1 takes 1.0 itself. -/
theorem witness_LogarithmAndExponentialDeliver :
    (stack 0x037F [0x3FFD8000000000000000#80, one]).pending = .clear ∧
    (stack 0x037F [0x3FFD8000000000000000#80, one]).stTag 0#3 ≠ .empty ∧
    (stack 0x037F [0x3FFD8000000000000000#80, one]).stTag 1#3 ≠ .empty ∧
    isFiniteNonzero 0x3FFD8000000000000000#80 = true ∧ isFiniteNonzero one = true ∧
    signOf 0x3FFD8000000000000000#80 = false ∧
    cmpExt 0x3FFD8000000000000000#80 one ≠ .equal ∧ inXp1Domain Params.taken 0x3FFD8000000000000000#80 = true ∧
    cmpExt (magnitude one) one ≠ .greater := by decide +kernel

/-- Zeros, infinities, 0.25, 1.0 and -1.0 as x and y, on both sides of each bound of the tables; -1.0 lies outside
XP1_DOMAIN where its lower end is -2.0 too. -/
theorem witness_LogarithmAndExponentialSpecialOperands :
    (above (zero false) = true ∧ above (zero true) = true ∧ above (infinity false) = true ∧ above (infinity true) = true ∧
      above 0x3FFD8000000000000000#80 = true ∧ above one = true ∧ above (negate one) = true ∧ above two = true) ∧
    (isZero (zero true) = true ∧ signOf (zero true) = true ∧ isInf (infinity true) = true ∧ isFiniteNonzero one = true ∧
      isZero (zero false) = true ∧ isInf (infinity false) = true ∧ signOf (infinity false) = false) ∧
    (cmpExt 0x3FFD8000000000000000#80 one = .less ∧ cmpExt two one = .greater ∧ cmpExt one one = .equal) ∧
    (cmpExt (negate one) (negate one) ≠ .less ∧ inXp1Domain Params.taken (negate one) = false ∧
      inXp1Domain { Params.taken with xp1Low := negate two } (negate one) = false ∧
      inXp1Domain { Params.taken with xp1Low := negate two } 0xBFFEFFFFFFFFFFFFFFFF#80 = true ∧
      inXp1Domain Params.taken (zero true) = true ∧ inXp1Domain Params.taken 0x3FFD8000000000000000#80 = true ∧
      cmpExt (negate two) (negate one) = .less) ∧
    cmpExt (magnitude (negate two)) one = .greater := by decide +kernel

/-- ST(1) = -1.0 and z = -1, from the exponent 2 to the least one; the largest and least numbers by 1 and -1, by 65536 and
-65536 (beyond the moved exponent), and the zeros and infinities. -/
theorem witness_ScaleAddsExponent :
    ((stack 0x037F [0x00028000000000000000#80, negate one]).pending = .clear ∧
      (stack 0x037F [0x00028000000000000000#80, negate one]).stTag 0#3 ≠ .empty ∧
      (stack 0x037F [0x00028000000000000000#80, negate one]).stTag 1#3 ≠ .empty ∧
      classOf 0x00028000000000000000#80 = .normal ∧ isFiniteNonzero (negate one) = true ∧
      1 ≤ ((expOf 0x00028000000000000000#80).toNat : Int) + -1 ∧
      ((expOf 0x00028000000000000000#80).toNat : Int) + -1 ≤ 32766) ∧
    (ratOf (negate one) ≤ 0 ∧ ((-1 : Int) : ℚ) - 1 < ratOf (negate one) ∧ ratOf (negate one) ≤ (-1 : Int)) ∧
    (let x := valOf 0x7FFE8000000000000000#80;
      isFiniteNonzero 0x7FFE8000000000000000#80 = true ∧ exponentOf { x with k := x.k + 1 } = 16384 ∧
        40960 ≤ exponentOf { x with k := x.k + 65536 }) ∧
    (let x := valOf 0x00018000000000000000#80;
      isFiniteNonzero 0x00018000000000000000#80 = true ∧ exponentOf { x with k := x.k + -1 } = -16383 ∧
        exponentOf { x with k := x.k + -65536 } < -40958) ∧
    (isInf (infinity true) = true ∧ isNumber (infinity false) = true ∧ isZero (zero true) = true ∧
      infinity true ≠ infinity false ∧ w0.masked .o = true ∧ (stack 0x0377 []).masked .o = false ∧
      (stack 0x036F []).masked .u = false) := by
  refine ⟨by decide +kernel, ?_, by decide +kernel, by decide +kernel, by decide +kernel⟩
  have h : valOf (negate one) = { neg := true, n := 2 ^ 63, k := -63 } := by decide +kernel
  rw [ratOf, h, Num.toRat]
  norm_num [zpow_neg]

theorem witness_InitializeAndClear : w0.pending = .clear ∧ pendingIe.pending = .mf := by decide +kernel

theorem witness_ControlAndStatusWordTransfers : w0.pending = .clear ∧ w0.inRange (.abs 0xFFFFFFFE) 2 = true ∧
    (Instr.fnstcw [] at1000).nonWaiting = true ∧ (Instr.fstcw [] at1000).nonWaiting = false ∧ memWf w0.mem = true ∧
    w0.cw = 0x037F#16 := by decide +kernel

/-- Each format, with the image at the end of the offset space. -/
theorem witness_StoreEnvironment : w0.pending = .clear ∧ memWf w0.mem = true ∧
    (w0.imageFormat [] = .protected32 ∧ w0.inRange (.abs 0xFFFFFFE4) 28 = true) ∧
    (w0.imageFormat [.opSize] = .protected16 ∧ w0.inRange (.abs 0xFFFFFFF2) 14 = true) ∧
    ({ w0 with mode := .realAddress } : State).imageFormat [] = .real32 ∧
    ({ w0 with mode := .realAddress } : State).imageFormat [.opSize] = .real16 := by decide +kernel

/-- The state in each format: 32-bit and 16-bit protected, 32-bit and 16-bit real-address. -/
def formats : List (List Prefix × State × ImageFormat) :=
  [([], w0, .protected32), ([.opSize], w0, .protected16), ([], { w0 with mode := .realAddress }, .real32),
    ([.opSize], { w0 with mode := .realAddress }, .real16)]

theorem formats_in_range : ∀ x ∈ formats, x.2.1.imageFormat x.1 = x.2.2 ∧ x.2.1.pending = .clear ∧
    x.2.1.inRange at1000 (x.2.2.size + 80) = true ∧ x.2.1.inRange at1000 x.2.2.size = true := by decide +kernel

theorem formats_hold : ∀ x ∈ formats, ImageHolds x.2.2 (x.2.1.addr at1000) x.2.1 (x.2.1.readEnv x.2.2 0x1000) := by
  intro x h
  simp only [formats, List.mem_cons, List.not_mem_nil, or_false] at h
  obtain rfl | rfl | rfl | rfl := h <;> (simp only [ImageHolds]; decide +kernel)

theorem witness_LoadEnvironment : ∀ x ∈ formats, x.2.1.pending = .clear ∧ x.2.1.imageFormat x.1 = x.2.2 ∧
    x.2.1.inRange at1000 x.2.2.size = true ∧
    ImageHolds x.2.2 (x.2.1.addr at1000) x.2.1 (x.2.1.readEnv x.2.2 0x1000) := fun x h =>
  ⟨(formats_in_range x h).2.1, (formats_in_range x h).1, (formats_in_range x h).2.2.2, formats_hold x h⟩

theorem witness_SaveState : w0.pending = .clear ∧ memWf w0.mem = true ∧ w0.imageFormat [] = .protected32 ∧
    w0.inRange (.abs 0xFFFFFF94) 108 = true := by decide +kernel

theorem witness_RestoreState : ∀ x ∈ formats, x.2.1.pending = .clear ∧ x.2.1.imageFormat x.1 = x.2.2 ∧
    x.2.1.inRange at1000 (x.2.2.size + 80) = true ∧
    ImageHolds x.2.2 (x.2.1.addr at1000) x.2.1 (x.2.1.readEnv x.2.2 0x1000) := fun x h =>
  ⟨(formats_in_range x h).2.1, (formats_in_range x h).1, (formats_in_range x h).2.2.1, formats_hold x h⟩

theorem witness_RestoreUndoesSave : ∀ x ∈ formats, x.2.1.Inv ∧ (∃ t, exec (.fnsave x.1 at1000) x.2.1 = .next t) ∧
    x.2.1.imageFormat x.1 = x.2.2 := fun x h =>
  ⟨inv_of ((by decide +kernel : ∀ x ∈ formats, invOk x.2.1 = true) x h),
    next_of ((by decide +kernel : ∀ x ∈ formats, isNext (exec (.fnsave x.1 at1000) x.2.1) = true) x h),
    (formats_in_range x h).1⟩

theorem witness_StackPointerFreeAndNoOperations : w0.pending = .clear := by decide +kernel

end Sys2Proof.Tests
end

/-! PROOFS. The family of spec/40_formats_numerics.md: comparison orders the values (R185), and RoundGrid and RoundP give
the neighbour the rounding mode selects (R156). -/

namespace Sys2Proof.FormatsNumerics

open Sys2Proof Sys2Proof.Machine

/-! ### Comparison (R185) -/

theorem relationOf_compare (x y : ℚ) :
    relationOf (compare x y) = if x < y then .less else if x = y then .equal else .greater := by
  rcases lt_trichotomy x y with h | h | h
  · rw [compare_lt_iff_lt.mpr h, if_pos h]; rfl
  · rw [compare_eq_iff_eq.mpr h, if_neg h.not_lt, if_pos h]; rfl
  · rw [compare_gt_iff_gt.mpr h, if_neg h.not_gt, if_neg h.ne']; rfl

theorem cmpExt_inf_left {a b : Ext} (ha : isInf a = true) :
    cmpExt a b =
      if isInf b && signOf a == signOf b then .equal else if signOf a then .less else .greater := by
  rw [cmpExt, if_pos ha]

theorem cmpExt_inf_right {a b : Ext} (ha : isInf a = false) (hb : isInf b = true) :
    cmpExt a b = if signOf b then .greater else .less := by
  rw [cmpExt, if_neg (by simp [ha]), if_pos hb]

/-- Settles O21: the model's integer comparison is that of the rational values, and the rows with an infinity are the
first two branches of Cmp. -/
theorem compareOrdersValues : Obligations.CompareOrdersValues := by
  intro a b _ _
  refine ⟨fun ha hb => ?finite, fun ha hb => ?left, fun ha hb => ?right, fun ha hb => ?both⟩
  case finite => rw [cmpExt_eq ha hb, relationOf_compare]
  case left => simp [cmpExt_inf_left ha, hb]
  case right => exact cmpExt_inf_right ha hb
  case both => simp [cmpExt_inf_left ha, hb]

/-! ### Rounding a cut value (R156)

`IsCut c y` says what the three fields of a cut mean for the value `y` measured in grid spacings. It holds of both kinds
of magnitude; what RoundGrid selects follows from it alone. -/

/-- Comparisons agree where both strict orders do. -/
theorem compare_congr {α β : Type} [LinearOrder α] [LinearOrder β] {a b : α} {x y : β} (lt : a < b ↔ x < y)
    (gt : b < a ↔ y < x) : compare a b = compare x y := by
  rcases lt_trichotomy a b with h | h | h
  · rw [compare_lt_iff_lt.mpr h, compare_lt_iff_lt.mpr (lt.mp h)]
  · have eq : x = y := le_antisymm (not_lt.mp (mt gt.mpr h.not_gt)) (not_lt.mp (mt lt.mpr h.not_lt))
    rw [compare_eq_iff_eq.mpr h, compare_eq_iff_eq.mpr eq]
  · rw [compare_gt_iff_gt.mpr h, compare_gt_iff_gt.mpr (gt.mp h)]

section Cut

variable {K : Type} [Field K] [LinearOrder K] [IsStrictOrderedRing K]

/-- The cut of `y` spacings: the whole spacings below it, how it compares with the midpoint above them, and whether it is
their number. -/
structure IsCut (c : Cut) (y : K) : Prop where
  le : (c.lo : K) ≤ y
  lt : y < c.lo + 1
  half : c.half = compare y (c.lo + 1 / 2)
  exact : c.exact = true ↔ y = c.lo

/-- R156 does not depend on the unit in which value and spacing are measured. -/
theorem isRounded_mul_spacing {rc : RoundMode} {neg : Bool} {y u : K} {m : Nat} (hu : 0 < u) :
    IsRounded rc neg (y * u) u m ↔ IsRounded rc neg y 1 m := by
  have dist : |y * u - m * u| = |y - m| * u := by rw [← sub_mul, abs_mul, abs_of_pos hu]
  have half : u / 2 = 1 / 2 * u := by ring
  have above : y * u + u = (y + 1) * u := by ring
  have above' : (m : K) * u + u = (m + 1) * u := by ring
  cases rc <;>
    simp only [IsRounded, dist, half, above, above', mul_le_mul_iff_left₀ hu, mul_lt_mul_iff_left₀ hu,
      mul_left_inj' hu.ne', mul_one]

/-- A value on the grid is its own rounding in every mode. -/
theorem isRounded_self (rc : RoundMode) (neg : Bool) (m : Nat) : IsRounded rc neg (m : K) 1 m := by
  cases rc <;> simp [IsRounded]

/-- Off the grid, the candidate below is the rounding where R156 does not go away from zero. -/
theorem isRounded_lo {rc : RoundMode} {neg : Bool} {c : Cut} {y : K} (hc : IsCut c y)
    (hr : roundsAway rc neg c = false) : IsRounded rc neg y 1 c.lo := by
  obtain ⟨le, lt, half, -⟩ := hc
  cases rc with
  | nearest =>
    simp only [roundsAway, Bool.or_eq_false_iff, beq_eq_false_iff_ne, Bool.and_eq_false_iff] at hr
    obtain ⟨notAbove, tie⟩ := hr
    have le_mid : y ≤ c.lo + 1 / 2 := by
      rwa [half, ne_eq, compare_gt_iff_gt, not_lt] at notAbove
    simp only [IsRounded, mul_one, abs_of_nonneg (sub_nonneg.mpr le)]
    refine ⟨by linarith, fun h => ?_⟩
    have mid : c.half = .eq := by rw [half, compare_eq_iff_eq]; linarith
    have := tie.resolve_left (absurd mid)
    omega
  | down => simp [IsRounded, show neg = false from hr, le, lt]
  | up => simp [IsRounded, show neg = true by simpa [roundsAway] using hr, le, lt]
  | zero => simp [IsRounded, le, lt]

/-- Off the grid, the candidate above is the rounding where R156 goes away from zero. -/
theorem isRounded_lo_succ {rc : RoundMode} {neg : Bool} {c : Cut} {y : K} (hc : IsCut c y) (off : y ≠ c.lo)
    (hr : roundsAway rc neg c = true) : IsRounded rc neg y 1 (c.lo + 1) := by
  have lo_lt := lt_of_le_of_ne hc.le off.symm
  obtain ⟨-, lt, half, -⟩ := hc
  cases rc with
  | nearest =>
    simp only [roundsAway, Bool.or_eq_true, beq_iff_eq, Bool.and_eq_true] at hr
    have mid_le : c.lo + 1 / 2 ≤ y := by
      rcases hr with above | ⟨mid, -⟩
      · exact (compare_gt_iff_gt.mp (half ▸ above)).le
      · exact (compare_eq_iff_eq.mp (half ▸ mid)).ge
    simp only [IsRounded, mul_one, Nat.cast_add, Nat.cast_one, abs_of_neg (sub_neg.mpr lt)]
    refine ⟨by linarith, fun h => ?_⟩
    have mid : c.half = .eq := by rw [half, compare_eq_iff_eq]; linarith
    have odd : c.lo % 2 = 1 := by simpa [mid] using hr
    omega
  | down => simp [IsRounded, show neg = true from hr, lo_lt, lt.le]
  | up => simp [IsRounded, show neg = false by simpa [roundsAway] using hr, lo_lt, lt.le]
  | zero => simp [roundsAway] at hr

/-- What R156 asks of a rounded magnitude for the value `x` on the spacing `2^q`. -/
structure Rounds (rc : RoundMode) (neg : Bool) (x : K) (q : Int) (r : Rounded) : Prop where
  spacing : r.q = q
  selected : IsRounded rc neg x ((2 : K) ^ q) r.n
  inexact_iff : r.inexact = true ↔ (r.n : K) * (2 : K) ^ q ≠ x
  up_iff : r.up = true ↔ x < (r.n : K) * (2 : K) ^ q

/-- What R156 asks, read off in grid spacings. -/
theorem Rounds.of_spacings {rc : RoundMode} {neg : Bool} {y : K} {q : Int} {r : Rounded} (spacing : r.q = q)
    (selected : IsRounded rc neg y 1 r.n) (inexact_iff : r.inexact = true ↔ (r.n : K) ≠ y)
    (up_iff : r.up = true ↔ y < r.n) : Rounds rc neg (y * 2 ^ q) q r :=
  have hu : (0 : K) < 2 ^ q := by positivity
  { spacing
    selected := (isRounded_mul_spacing hu).mpr selected
    inexact_iff := inexact_iff.trans (mul_left_inj' hu.ne').not.symm
    up_iff := up_iff.trans (mul_lt_mul_iff_left₀ hu).symm }

/-- RoundGrid rounds any value its magnitude is cut from. -/
theorem roundGrid_rounds {z : Exact} {q : Int} {y : K} (rc : RoundMode) (hc : IsCut (z.mag.cut q) y) :
    Rounds rc z.neg (y * 2 ^ q) q (roundGrid z q rc) := by
  unfold roundGrid
  dsimp only
  by_cases on : (z.mag.cut q).exact = true
  · rw [if_pos on]
    have eq := hc.exact.mp on
    exact .of_spacings rfl (eq ▸ isRounded_self ..) (by simp [eq]) (by simp [eq])
  · have off : y ≠ (z.mag.cut q).lo := mt hc.exact.mpr on
    rw [if_neg on]
    by_cases away : roundsAway rc z.neg (z.mag.cut q) = true
    · rw [if_pos away]
      have lt := hc.lt
      exact .of_spacings rfl (isRounded_lo_succ hc off away) (by simpa using lt.ne') (by simpa using lt)
    · rw [if_neg away]
      exact .of_spacings rfl (isRounded_lo hc (by simpa using away)) (by simpa using off.symm) (by simpa using hc.le)

/-- A power of two as a quotient of natural powers, as the model scales by the two positive parts of a difference. -/
theorem two_zpow_sub (i j : Int) : (2 : K) ^ (i - j) = 2 ^ (i - j).toNat / 2 ^ (j - i).toNat := by
  rw [← zpow_natCast, ← zpow_natCast, ← zpow_sub₀ two_ne_zero]
  congr 1
  omega

/-- The exponent of a power of two next below a value is unique. -/
theorem exponent_unique {x : K} {e f : Int} (he : (2 : K) ^ e ≤ x) (he' : x < 2 ^ (e + 1)) (hf : (2 : K) ^ f ≤ x)
    (hf' : x < 2 ^ (f + 1)) : e = f := by
  have h1 := (zpow_lt_zpow_iff_right₀ (one_lt_two (α := K))).mp (he.trans_lt hf')
  have h2 := (zpow_lt_zpow_iff_right₀ (one_lt_two (α := K))).mp (hf.trans_lt he')
  omega

end Cut

/-! ### Quotients -/

/-- Euclidean division of naturals is a cut of their quotient. -/
theorem isCut_div (a : Nat) {b : Nat} (hb : 0 < b) :
    IsCut { lo := a / b, half := compare (2 * (a % b)) b, exact := a % b == 0 } ((a : ℚ) / b) := by
  have hb' : (0 : ℚ) < b := by exact_mod_cast hb
  have lt : ((a % b : Nat) : ℚ) < b := by exact_mod_cast Nat.mod_lt a hb
  have split : (a : ℚ) / b = (a / b : Nat) + (a % b : Nat) / b := by
    rw [eq_comm, ← mul_left_inj' hb'.ne', add_mul, div_mul_cancel₀ _ hb'.ne', div_mul_cancel₀ _ hb'.ne']
    exact_mod_cast Nat.div_add_mod' a b
  rw [split]
  refine ⟨le_add_of_nonneg_right (by positivity), by simpa [div_lt_one hb'] using lt, ?_, ?_⟩
  · refine compare_congr ?_ ?_
    · rw [add_lt_add_iff_left, div_lt_div_iff₀ hb' two_pos, one_mul, mul_comm]
      exact_mod_cast Iff.rfl
    · rw [add_lt_add_iff_left, div_lt_div_iff₀ two_pos hb', one_mul, mul_comm _ (2 : ℚ)]
      exact_mod_cast Iff.rfl
  · simp [hb.ne']

theorem ratio_cut (num : Nat) {den : Nat} (k q : Int) (hd : 0 < den) :
    IsCut ((Mag.ratio num den k).cut q) ((num : ℚ) / den * 2 ^ (k - q)) := by
  have value : (num : ℚ) / den * 2 ^ (k - q) =
      ((num <<< (k - q).toNat : Nat) : ℚ) / (den <<< (q - k).toNat : Nat) := by
    rw [two_zpow_sub, div_mul_div_comm]
    simp [Nat.shiftLeft_eq]
  rw [value]
  exact isCut_div _ (by simpa [Nat.shiftLeft_eq] using hd)

/-! ### Square roots -/

theorem isqrtFrom_bounds (b n r : Nat) (hr : r * r ≤ n) (hn : n < (r + 2 ^ b) * (r + 2 ^ b)) :
    isqrtFrom b n r * isqrtFrom b n r ≤ n ∧ n < (isqrtFrom b n r + 1) * (isqrtFrom b n r + 1) := by
  induction b generalizing r with
  | zero => exact ⟨hr, by simpa [isqrtFrom] using hn⟩
  | succ b ih =>
    unfold isqrtFrom
    by_cases h : (r + 2 ^ b) * (r + 2 ^ b) ≤ n
    · rw [if_pos h]
      exact ih _ h (by rwa [add_assoc, ← two_mul, ← pow_succ'])
    · rw [if_neg h]
      exact ih _ hr (not_le.mp h)

theorem isqrt_eq_sqrt (n : Nat) : isqrt n = Nat.sqrt n := by
  have hn : n < (0 + 2 ^ (n.log2 / 2 + 1)) * (0 + 2 ^ (n.log2 / 2 + 1)) := by
    rw [zero_add, ← pow_add]
    exact Nat.lt_log2_self.trans_le (Nat.pow_le_pow_right two_pos (by omega))
  obtain ⟨le, lt⟩ := isqrtFrom_bounds _ n 0 (by simp) hn
  exact Nat.eq_sqrt.mpr ⟨le, lt⟩

theorem sqrt_lt_nat_iff (a t m : Nat) : Real.sqrt ((a : ℝ) / 2 ^ t) < m ↔ a < (m * m) <<< t := by
  rw [Real.sqrt_lt (by positivity) m.cast_nonneg, div_lt_iff₀ (by positivity), Nat.shiftLeft_eq, pow_two]
  exact_mod_cast Iff.rfl

theorem nat_lt_sqrt_iff (a t m : Nat) : m < Real.sqrt ((a : ℝ) / 2 ^ t) ↔ (m * m) <<< t < a := by
  rw [Real.lt_sqrt m.cast_nonneg, lt_div_iff₀ (by positivity), Nat.shiftLeft_eq, pow_two]
  exact_mod_cast Iff.rfl

/-- The integer square root of a quotient by a power of two cuts the real square root of that quotient. -/
theorem isCut_sqrt (a t : Nat) :
    IsCut { lo := isqrt (a >>> t)
            half := compare (4 * a) (((2 * isqrt (a >>> t) + 1) * (2 * isqrt (a >>> t) + 1)) <<< t)
            exact := (isqrt (a >>> t) * isqrt (a >>> t)) <<< t == a } (Real.sqrt ((a : ℝ) / 2 ^ t)) := by
  have twice : Real.sqrt (((4 * a : Nat) : ℝ) / 2 ^ t) = 2 * Real.sqrt ((a : ℝ) / 2 ^ t) := by
    rw [Nat.cast_mul, mul_div_assoc, Real.sqrt_mul (by norm_num), Nat.cast_ofNat, show (4 : ℝ) = 2 ^ 2 by norm_num,
      Real.sqrt_sq two_pos.le]
  rw [isqrt_eq_sqrt]
  generalize hlo : Nat.sqrt (a >>> t) = lo
  have lo_le : (lo * lo) <<< t ≤ a := by
    rw [Nat.shiftLeft_eq, ← Nat.le_div_iff_mul_le (by positivity), ← Nat.shiftRight_eq_div_pow, ← hlo]
    exact Nat.sqrt_le _
  have lt_succ : a < ((lo + 1) * (lo + 1)) <<< t := by
    rw [Nat.shiftLeft_eq, ← Nat.div_lt_iff_lt_mul (by positivity), ← Nat.shiftRight_eq_div_pow, ← hlo]
    exact Nat.lt_succ_sqrt _
  have le : (lo : ℝ) ≤ Real.sqrt ((a : ℝ) / 2 ^ t) := not_lt.mp ((sqrt_lt_nat_iff a t lo).not.mpr lo_le.not_gt)
  refine ⟨le, by exact_mod_cast (sqrt_lt_nat_iff a t (lo + 1)).mpr lt_succ, compare_congr ?_ ?_, ?_⟩
  · rw [← sqrt_lt_nat_iff, twice]
    push_cast
    constructor <;> intro h <;> linarith
  · rw [← nat_lt_sqrt_iff, twice]
    push_cast
    constructor <;> intro h <;> linarith
  · rw [beq_iff_eq, ← le.not_lt_iff_eq', nat_lt_sqrt_iff, lo_le.not_lt_iff_eq]

theorem root_cut (num : Nat) (k q : Int) :
    IsCut ((Mag.root num k).cut q) (Real.sqrt num * 2 ^ (k - q)) := by
  have value : Real.sqrt num * (2 : ℝ) ^ (k - q) =
      Real.sqrt ((num <<< (2 * (k - q)).toNat : Nat) / 2 ^ (2 * (q - k)).toNat) := by
    rw [← Real.sqrt_sq (by positivity : (0 : ℝ) ≤ 2 ^ (k - q)), ← Real.sqrt_mul num.cast_nonneg, ← zpow_natCast,
      ← zpow_mul, mul_comm (k - q), Nat.cast_ofNat, mul_sub, two_zpow_sub, mul_div_assoc', ← mul_sub, ← mul_sub]
    simp [Nat.shiftLeft_eq]
  rw [value]
  exact isCut_sqrt ..

/-! ### The exponent -/

/-- The test of floorLog2 that tells the two possible exponents of a quotient apart. -/
theorem quotient_lt_two_zpow_iff (num : Nat) {den : Nat} (e : Int) (hd : 0 < den) :
    (if 0 ≤ e then decide (num < den <<< e.toNat) else decide (num <<< (-e).toNat < den)) = true ↔
      (num : ℚ) / den < 2 ^ e := by
  have hd' : (0 : ℚ) < den := by exact_mod_cast hd
  have power : (2 : ℚ) ^ e = 2 ^ e.toNat / 2 ^ (-e).toNat := by simpa using two_zpow_sub (K := ℚ) e 0
  rw [power, div_lt_div_iff₀ hd' (by positivity), mul_comm _ (den : ℚ)]
  split
  · rw [decide_eq_true_eq, Nat.shiftLeft_eq, show (-e).toNat = 0 by omega, pow_zero, mul_one]
    exact_mod_cast Iff.rfl
  · rw [decide_eq_true_eq, Nat.shiftLeft_eq, show e.toNat = 0 by omega, pow_zero, mul_one]
    exact_mod_cast Iff.rfl

/-- The binary logarithms of numerator and denominator leave a quotient two possible exponents. -/
theorem quotient_log2_bounds {num den : Nat} (hn : 0 < num) (hd : 0 < den) :
    (2 : ℚ) ^ ((num.log2 : Int) - den.log2 - 1) ≤ (num : ℚ) / den ∧
      (num : ℚ) / den < 2 ^ ((num.log2 : Int) - den.log2 + 1) := by
  have hd' : (0 : ℚ) < den := by exact_mod_cast hd
  have num_lo : (2 : ℚ) ^ num.log2 ≤ num := by exact_mod_cast Nat.log2_self_le hn.ne'
  have num_hi : (num : ℚ) < 2 ^ (num.log2 + 1) := by exact_mod_cast Nat.lt_log2_self
  have den_lo : (2 : ℚ) ^ den.log2 ≤ den := by exact_mod_cast Nat.log2_self_le hd.ne'
  have den_hi : (den : ℚ) < 2 ^ (den.log2 + 1) := by exact_mod_cast Nat.lt_log2_self
  constructor
  · rw [sub_sub, zpow_sub₀ two_ne_zero]
    exact_mod_cast div_le_div₀ num.cast_nonneg num_lo hd' den_hi.le
  · rw [sub_add_eq_add_sub, zpow_sub₀ two_ne_zero]
    exact_mod_cast div_lt_div₀ num_hi den_lo (by positivity) (by positivity)

theorem ratio_floorLog2_eq (num : Nat) {den : Nat} (k : Int) (hd : 0 < den) :
    (Mag.ratio num den k).floorLog2 =
      (if (num : ℚ) / den < 2 ^ ((num.log2 : Int) - den.log2) then (num.log2 : Int) - den.log2 - 1
        else (num.log2 : Int) - den.log2) + k := by
  simp only [Mag.floorLog2, quotient_lt_two_zpow_iff num _ hd]
  split <;> ring

theorem ratio_floorLog2_bounds {num den : Nat} (k : Int) (hn : 0 < num) (hd : 0 < den) :
    (2 : ℚ) ^ (Mag.ratio num den k).floorLog2 ≤ (num : ℚ) / den * 2 ^ k ∧
      (num : ℚ) / den * 2 ^ k < 2 ^ ((Mag.ratio num den k).floorLog2 + 1) := by
  have hk : (0 : ℚ) < 2 ^ k := by positivity
  obtain ⟨lo, hi⟩ := quotient_log2_bounds hn hd
  rw [ratio_floorLog2_eq num k hd, add_right_comm, zpow_add₀ two_ne_zero, zpow_add₀ two_ne_zero _ k,
    mul_le_mul_iff_left₀ hk, mul_lt_mul_iff_left₀ hk]
  split
  · next below => exact ⟨lo, by rwa [sub_add_cancel]⟩
  · next notBelow => exact ⟨not_lt.mp notBelow, hi⟩

theorem root_floorLog2_bounds {num : Nat} (k : Int) (hn : 0 < num) :
    (2 : ℝ) ^ (Mag.root num k).floorLog2 ≤ Real.sqrt num * 2 ^ k ∧
      Real.sqrt num * 2 ^ k < 2 ^ ((Mag.root num k).floorLog2 + 1) := by
  have hk : (0 : ℝ) < 2 ^ k := by positivity
  have lo : (2 ^ (num.log2 / 2)) ^ 2 ≤ num := by
    rw [← pow_mul]
    exact (Nat.pow_le_pow_right two_pos (by omega)).trans (Nat.log2_self_le hn.ne')
  have hi : num < (2 ^ (num.log2 / 2 + 1)) ^ 2 := by
    rw [← pow_mul]
    exact Nat.lt_log2_self.trans_le (Nat.pow_le_pow_right two_pos (by omega))
  unfold Mag.floorLog2
  dsimp only
  rw [add_right_comm, zpow_add₀ two_ne_zero, zpow_add₀ two_ne_zero _ k, mul_le_mul_iff_left₀ hk,
    mul_lt_mul_iff_left₀ hk]
  constructor
  · exact Real.le_sqrt_of_sq_le (by exact_mod_cast lo)
  · rw [Real.sqrt_lt num.cast_nonneg (by positivity)]
    exact_mod_cast hi

/-! ### RoundGrid and RoundP -/

theorem roundP_eq_roundGrid {z : Exact} {e : Int} (p : Nat) (rc : RoundMode) (h : z.mag.floorLog2 = e) :
    roundP z p rc = roundGrid z (e - p + 1) rc := by
  rw [roundP, h]

/-- Settles O19: quotients and roots are cut correctly, which is all that RoundGrid uses, and the exponent RoundP takes is
the one its bounds determine. -/
theorem roundGridSelectsNeighbour : Obligations.RoundGridSelectsNeighbour := by
  refine ⟨fun neg num den k q rc hn hd => ?ratio, fun neg num k q rc hn => ?root⟩
  case ratio =>
    obtain ⟨spacing, selected, inexact_iff, up_iff⟩ :=
      roundGrid_rounds (z := { neg, mag := .ratio num den k }) rc (ratio_cut num k q hd)
    rw [mul_assoc, ← zpow_add₀ two_ne_zero, sub_add_cancel] at selected inexact_iff up_iff
    obtain ⟨le, lt⟩ := ratio_floorLog2_bounds k hn hd
    exact ⟨spacing, selected, inexact_iff, up_iff, fun p e he he' =>
      roundP_eq_roundGrid p rc (exponent_unique le lt he he')⟩
  case root =>
    obtain ⟨spacing, selected, inexact_iff, up_iff⟩ :=
      roundGrid_rounds (z := { neg, mag := .root num k }) rc (root_cut num k q)
    rw [mul_assoc, ← zpow_add₀ two_ne_zero, sub_add_cancel] at selected inexact_iff up_iff
    obtain ⟨le, lt⟩ := root_floorLog2_bounds k hn
    exact ⟨spacing, selected, inexact_iff, up_iff, fun p e he he' =>
      roundP_eq_roundGrid p rc (exponent_unique le lt he he')⟩

end Sys2Proof.FormatsNumerics

/-! PROOFS. The family of spec/41_data_transfer.md: FXCH exchanges two registers, filling the empty ones where the stack
underflow is masked (R222). -/

namespace Sys2Proof.DataTransfer

open Sys2Proof Sys2Proof.Machine

variable {s t u : State} {i : Instr} {j : StIdx}

/-! ### What an instruction leaves that stores nothing -/

/-- An instruction that runs to its end records its pointers and leaves the host (R47, R52). -/
theorem ran_of_runs (he : i.isFcomi = false) (h : Runs (allowed s i) (begun s i) u) :
    Ran i none s (u.advance i.length) :=
  have kept := h.kept
  have eflags : u.eflags = s.eflags := h.eflags_eq he
  have host : HostKept s (u.advance i.length) :=
    ⟨kept.gprs, kept.segs, eflags, kept.ne, kept.mode, kept.code32, kept.ignne, kept.params, kept.event⟩
  ⟨kept.fip, nofun, kept.fop, kept.cw, by rw [State.advance_eip, kept.eip]; rfl, host⟩

/-- Where no exception is pending, nothing is handed over: the instruction runs. -/
theorem runs_of_ended (hc : s.pending = .clear) (h : Ended s i t) :
    ∃ u, Runs (allowed s i) (begun s i) u ∧ t = u.advance i.length := by
  rcases h with ⟨mf, -⟩ | ⟨frozen, -⟩ | ⟨-, run⟩
  · exact nomatch hc.symm.trans mf
  · exact nomatch hc.symm.trans frozen
  · exact run

theorem memKept_of_runs (hs : i.stored s = none) (h : Runs (allowed s i) (begun s i) u) :
    MemKept s (u.advance i.length) := fun a =>
  h.byte_outside a fun _ _ stored => nomatch hs.symm.trans stored

/-! ### Reports -/

/-- An instruction that signals nothing and writes C1 (R29). -/
theorem flagged_setC1 (s : State) (i : Instr) (b : Bool) : Flagged [] s ((begun s i).freeCodes.setC1 b) where
  flags := rfl
  es := (Bool.or_false _).symm
  busy := (Bool.or_false _).symm
  ferr := rfl

theorem reports_of_eq (sw : t.sw = u.sw) (ferr : t.ferr = u.ferr) : Reports u t :=
  ⟨by rw [sw], by rw [sw], by rw [sw], by rw [sw], ferr⟩

/-- What an instruction does after its reports leaves them. -/
theorem flagged_of_reports {cs : List Cond} (h : Flagged cs s u) (r : Reports u t) : Flagged cs s t where
  flags := r.flags.trans h.flags
  es := r.es.trans h.es
  busy := r.busy.trans h.busy
  ferr := r.ferr.trans h.ferr

@[simp] theorem setFlag_es (w : StatusWord) (c : Cond) : (w.setFlag c).es = w.es := by cases c <;> rfl

@[simp] theorem setFlag_b (w : StatusWord) (c : Cond) : (w.setFlag c).b = w.b := by cases c <;> rfl

theorem es_signal (s : State) (c : Cond) : (s.signal c).sw.es = (s.sw.es || !s.masked c) := by
  rw [State.signal_sw]; split <;> simp [*]

/-- B follows ES (R34). -/
theorem b_signal (s : State) (c : Cond) : (s.signal c).sw.b = (s.sw.b || !s.masked c) := by
  rw [State.signal_sw]; split <;> simp [*]

theorem ferr_signal (s : State) (c : Cond) : (s.signal c).ferr = if !s.masked c then s.ferrPending else s.ferr := by
  unfold State.signal
  split
  · next masked => simp [masked]
  · next unmasked => simp [unmasked]; rfl

/-- A condition that an instruction signals first (R405). -/
theorem flagged_signal (s : State) (i : Instr) (c : Cond) : Flagged [c] s ((begun s i).freeCodes.signal c) where
  flags := (State.signal_exceptions _ c).trans (by cases c <;> rfl)
  es := (es_signal _ c).trans (by rw [List.any_cons, List.any_nil, Bool.or_false]; rfl)
  busy := (b_signal _ c).trans (by rw [List.any_cons, List.any_nil, Bool.or_false]; rfl)
  ferr := (ferr_signal _ c).trans (by rw [List.any_cons, List.any_nil, Bool.or_false]; rfl)

theorem c1_signal_isUnder (s : State) : (s.signal .isUnder).sw.c1 = false := by
  rw [State.signal_sw]; split <;> rfl

/-! ### The registers after a write -/

theorem get_set {α : Type} (w : Vector α 8) (k j : BitVec 3) (x : α) :
    (w.set k.toFin x).get j.toFin = if j = k then x else w.get j.toFin := by
  split
  · next e => simp [e, Vector.get_eq_getElem]
  · next ne => exact get_set_ne (Ne.symm ne)

theorem st_setSt (s : State) (i j : StIdx) (v : Ext) : (s.setSt i v).st j = if j = i then v else s.st j :=
  (get_set s.regs (s.phys i) (s.phys j) v).trans (by simp [State.phys, State.st])

theorem stTag_setSt (s : State) (i j : StIdx) (v : Ext) :
    (s.setSt i v).stTag j = if j = i then tagOf v else s.stTag j :=
  (get_set s.tags (s.phys i) (s.phys j) (tagOf v)).trans (by simp [State.phys, State.stTag])

/-- A written register is not empty (R43). -/
theorem tagOf_ne_empty (v : Ext) : tagOf v ≠ .empty := by
  unfold tagOf; split <;> simp

/-! ### FXCH (R222) -/

/-- What a register holds once it is loaded with the real indefinite where it is empty. -/
def filled (s : State) (i : StIdx) : Ext := if s.stTag i = .empty then realIndefinite else s.st i

theorem fillEmpty_eq (s : State) (i : StIdx) :
    s.fillEmpty i = if s.stTag i = .empty then s.setSt i realIndefinite else s := by
  simp [State.fillEmpty, State.stEmpty]

theorem st_fillEmpty (s : State) (i j : StIdx) : (s.fillEmpty i).st j = if j = i then filled s j else s.st j := by
  rw [fillEmpty_eq]
  by_cases same : j = i
  · rw [if_pos same, same, filled, apply_ite (State.st · i), st_setSt, if_pos rfl]
  · rw [if_neg same, apply_ite (State.st · j), st_setSt, if_neg same, ite_self]

/-- A register filled once stays so. -/
theorem filled_fillEmpty (s : State) (i j : StIdx) : filled (s.fillEmpty i) j = filled s j := by
  rw [fillEmpty_eq]
  by_cases empty : s.stTag i = .empty
  · by_cases same : j = i
    · simp [filled, empty, same, st_setSt, stTag_setSt, tagOf_ne_empty]
    · simp [filled, empty, same, st_setSt, stTag_setSt]
  · rw [if_neg empty]

theorem st_fillEmpty_fst (s : State) (i j : StIdx) : ((s.fillEmpty i).fillEmpty j).st i = filled s i := by
  simp [st_fillEmpty, filled_fillEmpty]

theorem st_fillEmpty_snd (s : State) (i j : StIdx) : ((s.fillEmpty i).fillEmpty j).st j = filled s j := by
  simp [st_fillEmpty, filled_fillEmpty]

@[simp] theorem fillEmpty_sw (s : State) (i : StIdx) : (s.fillEmpty i).sw = s.sw := by
  rw [fillEmpty_eq]; split <;> rfl

@[simp] theorem fillEmpty_ferr (s : State) (i : StIdx) : (s.fillEmpty i).ferr = s.ferr := by
  rw [fillEmpty_eq]; split <;> rfl

@[simp] theorem exchange_sw (s : State) (i : StIdx) : (s.exchange i).sw = s.sw := rfl

@[simp] theorem exchange_ferr (s : State) (i : StIdx) : (s.exchange i).ferr = s.ferr := rfl

/-- ST(0) and ST(i) hold `b` and `a`, each with the tag of its value. -/
def Swapped (i : StIdx) (a b : Ext) (t : State) : Prop :=
  t.st 0#3 = b ∧ t.st i = a ∧ t.stTag 0#3 = tagOf b ∧ t.stTag i = tagOf a

theorem exchange_swapped (s : State) (i : StIdx) : Swapped i (s.st 0#3) (s.st i) (s.exchange i) := by
  by_cases same : i = 0#3
  · subst same
    simp [Swapped, State.exchange, st_setSt, stTag_setSt]
  · simp [Swapped, State.exchange, st_setSt, stTag_setSt, Ne.symm same]

/-- The masked response of FXCH to its stack underflow. -/
def fillExchange (i : StIdx) (s : State) : State := ((s.fillEmpty 0#3).fillEmpty i).exchange i

/-- The state in which the numeric part of FXCH begins. -/
abbrev entry (s : State) (p : List Prefix) (i : StIdx) : State := (begun s (.fxch p i)).freeCodes

/-- FXCH where no exception is pending: the exchange, or the response to a stack underflow. -/
theorem exec_fxch (p : List Prefix) (i : StIdx) (hc : s.pending = .clear) :
    exec (.fxch p i) s = .next (State.advance
      (if s.stTag 0#3 = .empty ∨ s.stTag i = .empty then
        (entry s p i).respond .isUnder (fillExchange i)
      else ((entry s p i).setC1 false).exchange i) (Instr.fxch p i).length) := by
  have empty_iff : ((entry s p i).stEmpty 0#3 || (entry s p i).stEmpty i) = true ↔
      s.stTag 0#3 = .empty ∨ s.stTag i = .empty := Bool.or_eq_true_iff.trans (or_congr beq_iff_eq beq_iff_eq)
  simp only [← empty_iff]
  change execFxch p i s = _
  simp only [execFxch, State.nonControl, State.waiting, hc]
  rfl

theorem exec_fxch_full (p : List Prefix) (hc : s.pending = .clear) (h0 : s.stTag 0#3 ≠ .empty)
    (hj : s.stTag j ≠ .empty) :
    exec (.fxch p j) s = .next ((((entry s p j).setC1 false).exchange j).advance (Instr.fxch p j).length) := by
  rw [exec_fxch p j hc, if_neg (not_or.mpr ⟨h0, hj⟩)]

theorem exec_fxch_masked (p : List Prefix) (hc : s.pending = .clear) (h : s.stTag 0#3 = .empty ∨ s.stTag j = .empty)
    (masked : s.masked .isUnder = true) :
    exec (.fxch p j) s =
      .next ((fillExchange j ((entry s p j).signal .isUnder)).advance (Instr.fxch p j).length) := by
  have response : ∀ f, (entry s p j).respond .isUnder f = f ((entry s p j).signal .isUnder) := fun _ => if_pos masked
  rw [exec_fxch p j hc, if_pos h, response]

theorem exec_fxch_unmasked (p : List Prefix) (hc : s.pending = .clear) (h : s.stTag 0#3 = .empty ∨ s.stTag j = .empty)
    (unmasked : ¬ s.masked .isUnder = true) :
    exec (.fxch p j) s = .next (((entry s p j).signal .isUnder).advance (Instr.fxch p j).length) := by
  have response : ∀ f, (entry s p j).respond .isUnder f = (entry s p j).signal .isUnder := fun _ => if_neg unmasked
  rw [exec_fxch p j hc, if_pos h, response]

/-- What FXCH leaves, whether or not it finds an empty register. -/
structure FxchFrame (p : List Prefix) (i : StIdx) (s t : State) : Prop where
  ran : Ran (.fxch p i) none s t
  mem : MemKept s t
  top : t.sw.top = s.sw.top
  others : OthersKept [s.sw.top, s.sw.top + i] s t

theorem fxch_frame {p : List Prefix} (hc : s.pending = .clear) (h : exec (.fxch p j) s = .next t) :
    FxchFrame p j s t := by
  obtain ⟨u, runs, rfl⟩ := runs_of_ended hc (fxch_ended h)
  obtain ⟨others, top⟩ := runs.stack
  have others : OthersKept ([0#3, j].map fun k => s.sw.top + k) s (u.advance (Instr.fxch p j).length) := others
  exact ⟨ran_of_runs rfl runs, memKept_of_runs rfl runs, top.resolve_right List.not_mem_nil, by simpa using others⟩

/-! ### Its values and reports -/

theorem Swapped.advance {a b : Ext} (h : Swapped j a b t) (n : Nat) : Swapped j a b (t.advance n) := h

theorem fillExchange_swapped (s : State) (i : StIdx) :
    Swapped i (filled s 0#3) (filled s i) (fillExchange i s) := by
  have swapped := exchange_swapped ((s.fillEmpty 0#3).fillEmpty i) i
  rwa [st_fillEmpty_fst, st_fillEmpty_snd] at swapped

theorem fillExchange_reports (s : State) (i : StIdx) (n : Nat) : Reports s ((fillExchange i s).advance n) :=
  reports_of_eq (by simp [fillExchange]) (by simp [fillExchange])

theorem filled_signal (s : State) (c : Cond) (i : StIdx) : filled (s.signal c) i = filled s i := by
  have st : (s.signal c).st i = s.st i := by simp only [State.st, State.phys, State.signal_regs, State.signal_top]
  have stTag : (s.signal c).stTag i = s.stTag i := by
    simp only [State.stTag, State.phys, State.signal_tags, State.signal_top]
  rw [filled, st, stTag, filled]

theorem filled_entry (s : State) (p : List Prefix) (i j : StIdx) : filled (entry s p i) j = filled s j := rfl

/-- Settles O32: the frame is that of the updates FXCH is made of; the values are those of the exchange, after the
response to the stack underflow where a register is empty. -/
theorem exchangeSwaps : Obligations.ExchangeSwaps := by
  intro p i s hc
  refine ⟨fun h0 hi => ?full, fun h => ?empty⟩
  case full =>
    have run := exec_fxch_full p hc h0 hi
    obtain ⟨ran, mem, top, others⟩ := fxch_frame hc run
    obtain ⟨val0, vali, tag0, tagi⟩ := (exchange_swapped ((entry s p i).setC1 false) i).advance (Instr.fxch p i).length
    refine ⟨_, run, ran, mem, ⟨top, val0, vali, tag0, tagi, others⟩, rfl, ?_⟩
    exact flagged_of_reports (flagged_setC1 s (.fxch p i) false) (reports_of_eq rfl rfl)
  case empty =>
    have c1 := c1_signal_isUnder (entry s p i)
    have flagged := flagged_signal s (.fxch p i) .isUnder
    by_cases masked : s.masked .isUnder = true
    · have run := exec_fxch_masked p hc h masked
      obtain ⟨ran, mem, top, others⟩ := fxch_frame hc run
      have reports := fillExchange_reports ((entry s p i).signal .isUnder) i (Instr.fxch p i).length
      have swapped := (fillExchange_swapped ((entry s p i).signal .isUnder) i).advance (Instr.fxch p i).length
      rw [filled_signal, filled_signal, filled_entry, filled_entry] at swapped
      obtain ⟨val0, vali, tag0, tagi⟩ := swapped
      refine ⟨_, run, ran, mem, reports.c1.trans c1, flagged_of_reports flagged reports, ?_⟩
      rw [if_pos masked]
      exact ⟨top, val0, vali, tag0, tagi, others⟩
    · have run := exec_fxch_unmasked p hc h masked
      obtain ⟨ran, mem, top, -⟩ := fxch_frame hc run
      refine ⟨_, run, ran, mem, c1, flagged_of_reports flagged (reports_of_eq rfl rfl), ?_⟩
      rw [if_neg masked]
      exact ⟨top, State.signal_regs .., State.signal_tags ..⟩

end Sys2Proof.DataTransfer

/-! PROOFS. The family of spec/43_basic_arithmetic.md: FABS and FCHS write ST(0) with its sign bit changed, or report the
stack underflow of an empty ST(0) (R260, R261). -/

namespace Sys2Proof.BasicArithmetic

open Sys2Proof Sys2Proof.Machine Sys2Proof.DataTransfer

variable {s t : State} {i : Instr} {f : Ext → Ext}

/-! ### The sign bit of a register (R134) -/

/-- `v` with another sign bit. -/
def withSign (sign : Bool) (v : Ext) : Ext := mkExt sign (expOf v) (sigOf v)

theorem getLsbD_withSign (sign : Bool) (v : Ext) (k : Nat) :
    (withSign sign v).getLsbD k = if k = 79 then sign else v.getLsbD k := by
  simp only [withSign, mkExt, expOf, sigOf, BitVec.getLsbD_append, BitVec.getLsbD_extractLsb', BitVec.getLsbD_ofBool]
  obtain low | rfl | high := lt_trichotomy k 79
  · by_cases significand : k < 64
    · simp [significand, low.ne]
    · have exponent : k - 64 < 15 := by omega
      simp [significand, exponent, low.ne, Nat.add_sub_cancel' (not_lt.mp significand)]
  · simp
  · have outside : ¬ k < 64 ∧ ¬ k - 64 < 15 ∧ k - 64 - 15 ≠ 0 := by omega
    simp [outside, high.ne', BitVec.getLsbD_of_ge v k high]

theorem getLsbD_signBit (k : Nat) : (1#80 <<< 79).getLsbD k = decide (k = 79) := by
  rw [← BitVec.twoPow_eq, BitVec.getLsbD_twoPow]
  simp [eq_comm]

theorem magnitude_eq_withSign (v : Ext) : magnitude v = withSign false v := by
  refine BitVec.eq_of_getLsbD_eq fun k hk => ?_
  rw [getLsbD_withSign, magnitude, BitVec.getLsbD_and, BitVec.getLsbD_not, getLsbD_signBit]
  split <;> simp [*]

theorem negate_eq_withSign (v : Ext) : negate v = withSign (!signOf v) v := by
  refine BitVec.eq_of_getLsbD_eq fun k _ => ?_
  rw [getLsbD_withSign, negate, BitVec.getLsbD_xor, getLsbD_signBit]
  split <;> simp [*, signOf]

/-! ### A write to ST(i) -/

/-- An instruction that writes ST(i) last wrote it, where it left the other registers. -/
theorem wrote_setSt {u : State} {j : StIdx} (v : Ext) (n : Nat) (top : u.sw.top = s.sw.top)
    (others : OthersKept [s.sw.top + j] s ((u.setSt j v).advance n)) : Wrote j v s ((u.setSt j v).advance n) :=
  ⟨top, (st_setSt u j j v).trans (if_pos rfl), (stTag_setSt u j j v).trans (if_pos rfl), others⟩

/-! ### The response to a condition (R172, R405) -/

theorem respond_masked {c : Cond} (g : State → State) (masked : s.masked c = true) :
    s.respond c g = g (s.signal c) := if_pos masked

theorem respond_unmasked {c : Cond} (g : State → State) (unmasked : ¬ s.masked c = true) :
    s.respond c g = s.signal c := if_neg unmasked

/-! ### FABS and FCHS (R260, R261) -/

/-- The sign operations, each with what it makes of ST(0). -/
inductive SignOp : Instr → (Ext → Ext) → Prop
  | fabs (p : List Prefix) : SignOp (.fabs p) magnitude
  | fchs (p : List Prefix) : SignOp (.fchs p) negate

theorem SignOp.exec_eq (h : SignOp i f) (s : State) : exec i s = signOp i f s := by
  cases h <;> rfl

/-- What a sign operation leaves, whether or not ST(0) is empty. -/
structure SignFrame (i : Instr) (s t : State) : Prop where
  ran : Ran i none s t
  mem : MemKept s t
  others : OthersKept [s.sw.top + 0#3] s t

theorem SignOp.ended (h : SignOp i f) (run : exec i s = .next t) : Ended s i t := by
  rw [h.exec_eq] at run
  cases h <;> exact signOp_ended rfl rfl (List.mem_singleton_self _) run

theorem SignOp.frame (h : SignOp i f) (hc : s.pending = .clear) (run : exec i s = .next t) : SignFrame i s t := by
  obtain ⟨u, runs, rfl⟩ := runs_of_ended hc (h.ended run)
  have others := runs.stack.others
  cases h <;> exact ⟨ran_of_runs rfl runs, memKept_of_runs rfl runs, others⟩

/-- The state in which the numeric part of an instruction begins whose condition codes are undefined. -/
abbrev start (s : State) (i : Instr) : State := (begun s i).freeCodes

/-- A sign operation where no exception is pending: the write, or the response to a stack underflow. -/
theorem SignOp.exec_clear (h : SignOp i f) (hc : s.pending = .clear) :
    exec i s = .next (State.advance
      (if s.stTag 0#3 = .empty then (start s i).respond .isUnder fun u => u.setSt 0#3 realIndefinite
      else ((start s i).setC1 false).setSt 0#3 (f (s.st 0#3))) i.length) := by
  have empty_iff : (start s i).stEmpty 0#3 = true ↔ s.stTag 0#3 = .empty := beq_iff_eq
  simp only [← empty_iff]
  rw [h.exec_eq]
  simp only [signOp, State.nonControl, State.waiting, hc]
  cases h <;> rfl

/-- ST(0) is not empty: it is written, and nothing is signalled. -/
theorem SignOp.completes_full (h : SignOp i f) (hc : s.pending = .clear) (full : s.stTag 0#3 ≠ .empty) :
    Completes i s fun t =>
      Ran i none s t ∧ MemKept s t ∧ Wrote 0#3 (f (s.st 0#3)) s t ∧ t.sw.c1 = false ∧ Flagged [] s t := by
  have run := h.exec_clear hc
  rw [if_neg full] at run
  obtain ⟨ran, mem, others⟩ := h.frame hc run
  exact ⟨_, run, ran, mem, wrote_setSt _ _ rfl others, rfl,
    flagged_of_reports (flagged_setC1 s i false) (reports_of_eq rfl rfl)⟩

/-- ST(0) is empty: a stack underflow. -/
theorem SignOp.completes_empty (h : SignOp i f) (hc : s.pending = .clear) (empty : s.stTag 0#3 = .empty) :
    Completes i s fun t =>
      Ran i none s t ∧ MemKept s t ∧ t.sw.c1 = false ∧ Flagged [.isUnder] s t ∧
        if s.masked .isUnder then Wrote 0#3 realIndefinite s t else StackKept s t := by
  have run := h.exec_clear hc
  rw [if_pos empty] at run
  have c1 := c1_signal_isUnder (start s i)
  have flagged := flagged_signal s i .isUnder
  have top := State.signal_top (start s i) .isUnder
  by_cases masked : s.masked .isUnder = true
  · rw [respond_masked (s := start s i) _ masked] at run
    obtain ⟨ran, mem, others⟩ := h.frame hc run
    refine ⟨_, run, ran, mem, c1, flagged_of_reports flagged (reports_of_eq rfl rfl), ?_⟩
    rw [if_pos masked]
    exact wrote_setSt _ _ top others
  · rw [respond_unmasked (s := start s i) _ masked] at run
    obtain ⟨ran, mem, -⟩ := h.frame hc run
    refine ⟨_, run, ran, mem, c1, flagged_of_reports flagged (reports_of_eq rfl rfl), ?_⟩
    rw [if_neg masked]
    exact ⟨top, State.signal_regs .., State.signal_tags ..⟩

/-- Settles O39: both instructions are sign operations, and what each makes of ST(0) is its value with another sign bit. -/
theorem signOperationsChangeSignBit : Obligations.SignOperationsChangeSignBit := by
  intro p s hc i sign hi
  have isSignOp : ∃ f, SignOp i f ∧ f (s.st 0#3) = withSign sign (s.st 0#3) := by
    rcases List.mem_pair.mp hi with fabs | fchs
    · obtain ⟨rfl, rfl⟩ := Prod.mk.inj fabs
      exact ⟨magnitude, .fabs p, magnitude_eq_withSign _⟩
    · obtain ⟨rfl, rfl⟩ := Prod.mk.inj fchs
      exact ⟨negate, .fchs p, negate_eq_withSign _⟩
  obtain ⟨f, h, value⟩ := isSignOp
  refine ⟨fun full => ?_, h.completes_empty hc⟩
  have completes := h.completes_full hc full
  rwa [value] at completes

end Sys2Proof.BasicArithmetic

/-! PROOFS. The family of spec/60_exceptions.md: Signal sets the flags of its condition, and ES and B where the condition
is unmasked; outside the status word it changes FERR# alone (R405). -/

namespace Sys2Proof.Exceptions

open Sys2Proof Sys2Proof.Machine Sys2Proof.DataTransfer

variable {s : State} {c : Cond}

/-! ### The level of FERR# once an exception is pending (R418) -/

theorem ferrPending_of_asserted (asserted : s.ferr = true) : s.ferrPending = true := by
  simp [State.ferrPending, asserted]

/-- With NE set or IGNNE# asserted, FERR# keeps its level. -/
theorem ferrPending_eq_ferr (h : s.ne = true ∨ s.ignne = true) : s.ferrPending = s.ferr := by
  rcases h with ne | ignne
  · simp [State.ferrPending, ne]
  · simp [State.ferrPending, ignne]

/-! ### Signal (R405) -/

/-- The masked condition only sets its flags. -/
theorem signal_masked (masked : s.masked c = true) : s.signal c = s.withSw (s.sw.setFlag c) := if_pos masked

theorem sw_signal_unmasked (unmasked : s.masked c = false) :
    (s.signal c).sw = { s.sw.setFlag c with es := true, b := true } := by
  rw [State.signal_sw, unmasked, if_neg Bool.false_ne_true]

theorem ferr_signal_unmasked (unmasked : s.masked c = false) : (s.signal c).ferr = s.ferrPending := by
  rw [ferr_signal, unmasked]; rfl

/-- Outside the status word Signal changes FERR# alone. -/
theorem signal_withSw_sw (s : State) (c : Cond) : (s.signal c).withSw s.sw = s.withFerr (s.signal c).ferr :=
  congrArg (State.withSw · s.sw) (State.signal_eq s c)

/-- Settles O15: the flags and the mask bits are those of the model's tables; a masked condition sets its flags alone, and
an unmasked one leaves FERR# at its level with an exception pending. -/
theorem signalSetsFlags : Obligations.SignalSetsFlags := by
  refine ⟨fun w => ⟨rfl, rfl, rfl, rfl, rfl, rfl, rfl, rfl⟩, fun s c n row => ?_, fun s c => ⟨signal_masked, ?_⟩⟩
  · have maskBits : ∀ r ∈ [(Cond.isUnder, 0), (Cond.isOver, 0), (Cond.ia, 0), (Cond.d, 1), (Cond.z, 2), (Cond.o, 3),
        (Cond.u, 4), (Cond.p, 5)], r.1.maskBit = r.2 := by decide
    exact congrArg s.cw.getLsbD (maskBits (c, n) row)
  · intro unmasked
    have ferr := ferr_signal_unmasked unmasked
    exact ⟨sw_signal_unmasked unmasked, signal_withSw_sw s c,
      fun asserted => ferr.trans (ferrPending_of_asserted asserted), fun kept => ferr.trans (ferrPending_eq_ferr kept)⟩

end Sys2Proof.Exceptions

/-! PROOFS. The statements about every instruction: what an instruction leaves of memory, of the register stack, of the
host and of the pointers, which exception flags it changes, and that a step keeps the invariant. -/

namespace Sys2Proof.Frames

open Sys2Proof Sys2Proof.Machine Sys2Proof.DataTransfer

variable {s t u : State} {i : Instr}

/-! ### What an instruction answers, said once for all of them -/

/-- A non-waiting instruction is a control instruction (R46, R351). -/
theorem control_of_nonWaiting (h : i.nonWaiting = true) : i.keepsPointers = true ∨ i.replacesState = true := by
  cases i <;> first | exact .inl rfl | exact .inr rfl | exact nomatch h

/-- CheckPending handed the instruction over (R417, R418). -/
def HandedOver (s t : State) : Prop := s.pending = .mf ∧ t = s.raiseMF ∨ s.pending = .frozen ∧ t = s.freeze

/-- What an instruction does that is not handed over: a run of updates, or a control instruction's effect. -/
def Acts (s : State) (i : Instr) (u : State) : Prop :=
  i.keepsPointers = false ∧ i.replacesState = false ∧ Runs (allowed s i) (begun s i) u ∨ ControlEffect s i u

/-- A next state is a hand-over at a waiting instruction, or what the instruction does with nothing pending. -/
theorem exec_cases (h : exec i s = .next t) :
    i.nonWaiting = false ∧ HandedOver s t ∨
      (i.nonWaiting = false → s.pending = .clear) ∧ ∃ u, Acts s i u ∧ t = u.advance i.length := by
  by_cases control : i.keepsPointers = true ∨ i.replacesState = true
  · rcases exec_control i s t control h with ⟨hn, mf⟩ | ⟨hn, frozen⟩ | ⟨hc, u, effect, ht⟩
    · exact .inl ⟨hn, .inl mf⟩
    · exact .inl ⟨hn, .inr frozen⟩
    · exact .inr ⟨hc, u, .inr effect, ht⟩
  · have hn : i.nonWaiting = false := by simpa using mt control_of_nonWaiting control
    simp only [not_or, Bool.not_eq_true] at control
    rcases exec_ended i s t control.1 control.2 h with mf | frozen | ⟨hc, u, runs, ht⟩
    · exact .inl ⟨hn, .inl mf⟩
    · exact .inl ⟨hn, .inr frozen⟩
    · exact .inr ⟨fun _ => hc, u, .inl ⟨control.1, control.2, runs⟩, ht⟩

/-! ### The updates of the control instructions -/

/-- Recomputing ES touches the status word and FERR# only. -/
theorem refreshEs_eq (s : State) :
    s.refreshEs = (s.withSw { s.sw with es := summary s.sw s.cw, b := summary s.sw s.cw }).withFerr
      (if summary s.sw s.cw then s.ferrPending else false) := by
  unfold State.refreshEs
  split
  · next h => rw [h]; rfl
  · next h => rw [Bool.not_eq_true] at h; rw [h]

theorem byte_initFpu (s : State) (b : Nat) : s.initFpu.byte b = s.byte b := rfl

/-! ### Memory -/

/-- Every byte outside what a control instruction stores is as before. -/
theorem byte_outside_of_control (h : ControlEffect s i u) (b : Nat)
    (hb : ∀ a n, i.stored s = some (a, n) → b < a ∨ a + n ≤ b) : u.byte b = s.byte b := by
  cases h with
  | init p => rfl
  | clear p => rfl
  | loadCw p m => rw [refreshEs_eq]; rfl
  | storeCw p m i hi =>
    have out : b < s.addr m ∨ s.addr m + 2 ≤ b := by rcases hi with rfl | rfl <;> exact hb _ _ rfl
    exact State.byte_store_outside _ _ _ _ _ out
  | storeSw p m i hi =>
    have out : b < s.addr m ∨ s.addr m + 2 ≤ b := by rcases hi with rfl | rfl <;> exact hb _ _ rfl
    exact State.byte_store_outside _ _ _ _ _ out
  | storeAx p => rfl
  | loadEnv p m => rw [refreshEs_eq]; rfl
  | storeEnv p m i hi =>
    have out : b < s.addr m ∨ s.addr m + (s.imageFormat p).size ≤ b := by rcases hi with rfl | rfl <;> exact hb _ _ rfl
    rw [State.maskAll, refreshEs_eq]
    exact State.byte_store_outside _ _ _ _ _ out
  | restore p m => rw [refreshEs_eq]; rfl
  | save p m i hi =>
    have out : b < s.addr m ∨ s.addr m + ((s.imageFormat p).size + 80) ≤ b := by
      rcases hi with rfl | rfl <;> exact hb _ _ rfl
    rw [byte_initFpu, State.byte_store_outside _ _ _ _ _ (by omega)]
    exact State.byte_store_outside _ _ _ _ _ (by omega)
  | nothing p => rfl

/-- Settles O11: a run of updates stores within the bytes listed for its instruction, and so does every effect of a control
instruction. -/
theorem memoryFrame : Obligations.MemoryFrame := by
  intro i s t h b hb
  rcases exec_cases h with ⟨-, ⟨-, rfl⟩ | ⟨-, rfl⟩⟩ | ⟨-, u, ⟨-, -, runs⟩ | effect, rfl⟩
  · rfl
  · rfl
  · exact runs.byte_outside b hb
  · exact byte_outside_of_control effect b hb

/-! ### The register stack -/

theorem mem_allIndices (j : StIdx) : j ∈ allIndices := by
  rcases Laws.bit3_cases j with rfl | rfl | rfl | rfl | rfl | rfl | rfl | rfl <;> decide

/-- A control instruction that does not replace the state leaves the stack (R46). -/
theorem stackKept_of_control (h : ControlEffect s i u) (hr : i.replacesState = false) : StackKept s u := by
  cases h with
  | init p i hi => rcases hi with rfl | rfl <;> exact nomatch hr
  | loadEnv => exact nomatch hr
  | restore => exact nomatch hr
  | save p m i hi => rcases hi with rfl | rfl <;> exact nomatch hr
  | loadCw p m => rw [refreshEs_eq]; exact ⟨rfl, rfl, rfl⟩
  | storeEnv p m => rw [State.maskAll, refreshEs_eq]; exact ⟨rfl, rfl, rfl⟩
  | clear => exact ⟨rfl, rfl, rfl⟩
  | storeCw => exact ⟨rfl, rfl, rfl⟩
  | storeSw => exact ⟨rfl, rfl, rfl⟩
  | storeAx => exact ⟨rfl, rfl, rfl⟩
  | nothing => exact ⟨rfl, rfl, rfl⟩

theorem othersKept_of_stackKept (h : StackKept s t) (ks : List (BitVec 3)) : OthersKept ks s t :=
  fun _ _ => ⟨by rw [h.regs], by rw [h.tags]⟩

theorem touches_of_replacesState (h : i.replacesState = true) : i.touches = allIndices ∧ i.topMoves = allIndices := by
  cases i <;> first | exact ⟨rfl, rfl⟩ | exact nomatch h

/-- Settles O12: a run of updates stays within the registers and moves of TOP listed for its instruction; a control
instruction leaves the stack or replaces the state, and then every register and move is listed. -/
theorem stackFrame : Obligations.StackFrame := by
  intro i s t h
  have kept : ∀ v, StackKept s v → OthersKept (i.touches.map fun j => s.sw.top + j) s v ∧
      (v.sw.top = s.sw.top ∨ ∃ d ∈ i.topMoves, v.sw.top = s.sw.top + d) :=
    fun v hv => ⟨othersKept_of_stackKept hv _, .inl hv.top⟩
  rcases exec_cases h with ⟨-, ⟨-, rfl⟩ | ⟨-, rfl⟩⟩ | ⟨-, u, ⟨-, -, runs⟩ | effect, rfl⟩
  · exact kept _ ⟨rfl, rfl, rfl⟩
  · exact kept _ ⟨rfl, rfl, rfl⟩
  · obtain ⟨others, top⟩ := runs.stack
    refine ⟨others, top.imp id fun moved => ?_⟩
    obtain ⟨d, hd, e⟩ := List.mem_map.mp moved
    exact ⟨d, hd, e.symm⟩
  · by_cases hr : i.replacesState = true
    · obtain ⟨touches, moves⟩ := touches_of_replacesState hr
      refine ⟨fun k hk => absurd ?_ hk, .inr ⟨u.sw.top - s.sw.top, moves ▸ mem_allIndices _, ?_⟩⟩
      · exact List.mem_map.mpr ⟨k - s.sw.top, touches ▸ mem_allIndices _, by simp⟩
      · rw [BitVec.add_comm, BitVec.sub_add_cancel]; rfl
    · obtain ⟨top, regs, tags⟩ := stackKept_of_control effect (by simpa using hr)
      exact kept _ ⟨top, regs, tags⟩

/-! ### The host, the control word and the pointers -/

/-- What an instruction leaves of the host and of the control word, whichever it is. -/
structure HostFrame (i : Instr) (s t : State) : Prop where
  segs : t.segs = s.segs
  ne : t.ne = s.ne
  mode : t.mode = s.mode
  code32 : t.code32 = s.code32
  ignne : t.ignne = s.ignne
  params : t.params = s.params
  gprs : i.writesAx = false → t.gprs = s.gprs
  ax : t.gprs = { s.gprs with eax := t.gprs.eax }
  eaxHigh : t.gprs.eax.extractLsb' 16 16 = s.gprs.eax.extractLsb' 16 16
  eflags : i.isFcomi = false → t.eflags = s.eflags
  cw : i.writesCw = false → t.cw = s.cw

/-- An update that leaves the general registers. -/
theorem HostFrame.of_gprs (segs : t.segs = s.segs) (ne : t.ne = s.ne) (mode : t.mode = s.mode)
    (code32 : t.code32 = s.code32) (ignne : t.ignne = s.ignne) (params : t.params = s.params) (gprs : t.gprs = s.gprs)
    (eflags : i.isFcomi = false → t.eflags = s.eflags) (cw : i.writesCw = false → t.cw = s.cw) : HostFrame i s t :=
  ⟨segs, ne, mode, code32, ignne, params, fun _ => gprs, by rw [gprs], by rw [gprs], eflags, cw⟩

theorem hostFrame_of_runs (h : Runs (allowed s i) (begun s i) u) : HostFrame i s u :=
  have k := h.kept
  .of_gprs k.segs k.ne k.mode k.code32 k.ignne k.params k.gprs (fun he => h.eflags_eq he) fun _ => k.cw

theorem high_append (x : Word32) (v : Word16) :
    (x.extractLsb' 16 16 ++ v : BitVec 32).extractLsb' 16 16 = x.extractLsb' 16 16 := by
  rw [BitVec.extractLsb'_append_eq_of_le (by decide)]
  exact BitVec.extractLsb'_eq_self

theorem hostFrame_of_control (h : ControlEffect s i u) : HostFrame i s u := by
  have same : ∀ v : State, v.segs = s.segs → v.ne = s.ne → v.mode = s.mode → v.code32 = s.code32 → v.ignne = s.ignne →
      v.params = s.params → v.gprs = s.gprs → v.eflags = s.eflags → (i.writesCw = false → v.cw = s.cw) →
      HostFrame i s v := fun v h1 h2 h3 h4 h5 h6 h7 h8 h9 => .of_gprs h1 h2 h3 h4 h5 h6 h7 (fun _ => h8) h9
  cases h with
  | init p i hi =>
    refine same _ rfl rfl rfl rfl rfl rfl rfl rfl fun hw => ?_
    rcases hi with rfl | rfl <;> exact nomatch hw
  | loadCw => rw [refreshEs_eq]; exact same _ rfl rfl rfl rfl rfl rfl rfl rfl nofun
  | storeAx p i hi =>
    refine ⟨rfl, rfl, rfl, rfl, rfl, rfl, fun hw => ?_, rfl, high_append _ _, fun _ => rfl, fun _ => rfl⟩
    rcases hi with rfl | rfl <;> exact nomatch hw
  | loadEnv => rw [refreshEs_eq]; exact same _ rfl rfl rfl rfl rfl rfl rfl rfl nofun
  | storeEnv p m i hi =>
    rw [State.maskAll, refreshEs_eq]
    refine same _ rfl rfl rfl rfl rfl rfl rfl rfl fun hw => ?_
    rcases hi with rfl | rfl <;> exact nomatch hw
  | restore => rw [refreshEs_eq]; exact same _ rfl rfl rfl rfl rfl rfl rfl rfl nofun
  | save p m i hi =>
    have hw : i.writesCw = true := by rcases hi with rfl | rfl <;> rfl
    refine same _ ?_ ?_ ?_ ?_ ?_ ?_ ?_ ?_ fun no => absurd hw (by simp [no]) <;> simp [State.initFpu, State.storeEnv]
  | clear => exact same _ rfl rfl rfl rfl rfl rfl rfl rfl fun _ => rfl
  | storeCw => exact same _ rfl rfl rfl rfl rfl rfl rfl rfl fun _ => rfl
  | storeSw => exact same _ rfl rfl rfl rfl rfl rfl rfl rfl fun _ => rfl
  | nothing => exact same _ rfl rfl rfl rfl rfl rfl rfl rfl fun _ => rfl

theorem hostFrame (h : exec i s = .next t) : HostFrame i s t := by
  rcases exec_cases h with ⟨-, ⟨-, rfl⟩ | ⟨-, rfl⟩⟩ | ⟨-, u, ⟨-, -, runs⟩ | effect, rfl⟩
  · exact .of_gprs rfl rfl rfl rfl rfl rfl rfl (fun _ => rfl) fun _ => rfl
  · exact .of_gprs rfl rfl rfl rfl rfl rfl rfl (fun _ => rfl) fun _ => rfl
  · obtain ⟨segs, ne, mode, code32, ignne, params, gprs, ax, high, eflags, cw⟩ := hostFrame_of_runs runs
    exact ⟨segs, ne, mode, code32, ignne, params, gprs, ax, high, eflags, cw⟩
  · obtain ⟨segs, ne, mode, code32, ignne, params, gprs, ax, high, eflags, cw⟩ := hostFrame_of_control effect
    exact ⟨segs, ne, mode, code32, ignne, params, gprs, ax, high, eflags, cw⟩

/-- Settles O13: the frame of an instruction, with the general registers apart. -/
theorem hostAndControlWordFrame : Obligations.HostAndControlWordFrame := by
  intro i s t h
  obtain ⟨segs, ne, mode, code32, ignne, params, gprs, ax, high, eflags, cw⟩ := hostFrame h
  exact ⟨segs, ne, mode, code32, ignne, params, gprs, ax, high, eflags, cw⟩

/-- Only the instructions that keep the pointers or replace the state have a control effect. -/
theorem control_of_effect (h : ControlEffect s i u) : i.keepsPointers = true ∨ i.replacesState = true := by
  cases h with
  | init p i hi => rcases hi with rfl | rfl <;> exact .inr rfl
  | clear p i hi => rcases hi with rfl | rfl <;> exact .inl rfl
  | storeCw p m i hi => rcases hi with rfl | rfl <;> exact .inl rfl
  | storeSw p m i hi => rcases hi with rfl | rfl <;> exact .inl rfl
  | storeAx p i hi => rcases hi with rfl | rfl <;> exact .inl rfl
  | storeEnv p m i hi => rcases hi with rfl | rfl <;> exact .inl rfl
  | save p m i hi => rcases hi with rfl | rfl <;> exact .inr rfl
  | nothing p i hi => rcases hi with rfl | rfl | rfl | rfl <;> exact .inl rfl
  | loadCw => exact .inl rfl
  | loadEnv => exact .inr rfl
  | restore => exact .inr rfl

theorem pointersKept_of_control (h : ControlEffect s i u) (hk : i.keepsPointers = true) : PointersKept s u := by
  cases h with
  | init p i hi => rcases hi with rfl | rfl <;> exact nomatch hk
  | save p m i hi => rcases hi with rfl | rfl <;> exact nomatch hk
  | loadEnv => exact nomatch hk
  | restore => exact nomatch hk
  | loadCw => rw [refreshEs_eq]; exact ⟨rfl, rfl, rfl⟩
  | storeEnv => rw [State.maskAll, refreshEs_eq]; exact ⟨rfl, rfl, rfl⟩
  | clear => exact ⟨rfl, rfl, rfl⟩
  | storeCw => exact ⟨rfl, rfl, rfl⟩
  | storeSw => exact ⟨rfl, rfl, rfl⟩
  | storeAx => exact ⟨rfl, rfl, rfl⟩
  | nothing => exact ⟨rfl, rfl, rfl⟩

/-- Settles O14: a control effect leaves the pointers, and a run begins where they are recorded. -/
theorem pointersRecorded : Obligations.PointersRecorded := by
  intro i s t h
  rcases exec_cases h with ⟨-, hand⟩ | ⟨-, u, ⟨hk, -, runs⟩ | effect, rfl⟩
  · rcases hand with ⟨pending, rfl⟩ | ⟨pending, rfl⟩
    · exact ⟨fun _ => ⟨rfl, rfl, rfl⟩, fun _ _ hc => absurd (hc.symm.trans pending) nofun⟩
    · exact ⟨fun _ => ⟨rfl, rfl, rfl⟩, fun _ _ hc => absurd (hc.symm.trans pending) nofun⟩
  · have kept := runs.kept
    refine ⟨fun h => absurd (hk.symm.trans h) nofun, fun _ _ _ => ⟨kept.fip, kept.fop, fun m hm => ?_⟩⟩
    exact kept.fdp.trans (by rw [begun, hm]; rfl)
  · refine ⟨fun hk => ?_, fun hk hr => ?_⟩
    · obtain ⟨fip, fdp, fop⟩ := pointersKept_of_control effect hk
      exact ⟨fip, fdp, fop⟩
    · rcases control_of_effect effect with h | h
      · exact nomatch hk.symm.trans h
      · exact nomatch hr.symm.trans h

/-! ### CheckPending and the reserved encodings -/

/-- An instruction the processor has is not reserved, and its kind is supported (R7, R116). -/
theorem present_iff (P : Params) (i : Instr) :
    i.present P = true ↔
      i.isReserved = false ∧ (i.isFcmov = true → P.hasFcmov = true) ∧ (i.isFcomi = true → P.hasFcomi = true) := by
  unfold Instr.present
  cases i.isReserved <;> cases i.isFcmov <;> cases i.isFcomi <;> simp

/-- A state with an exception pending: ES is 1, with this NE and IGNNE#. -/
def pendingState (s : State) (ne ignne : Bool) : State := { s with sw := { s.sw with es := true }, ne := ne, ignne := ignne }

theorem pendingState_eq {ne ignne : Bool} (es : s.sw.es = true) (hn : s.ne = ne) (hi : s.ignne = ignne) :
    pendingState s ne ignne = s := by
  subst hn hi
  unfold pendingState
  rw [← es]

/-- Every waiting instruction does CheckPending first: its answer with an exception pending (R415). -/
theorem exec_pendingState (hp : i.present s.params = true) (hn : i.nonWaiting = false) (ne ignne : Bool) :
    exec i (pendingState s ne (ne && ignne)) =
      .next (if ne then (pendingState s ne (ne && ignne)).raiseMF else (pendingState s ne (ne && ignne)).freeze) := by
  obtain ⟨hr, hf, hi⟩ := (present_iff _ _).mp hp
  by_cases fcmov : i.isFcmov = true
  · have has := hf fcmov
    cases i <;> first | exact absurd fcmov Bool.false_ne_true | cases ne <;> exact if_pos has
  · by_cases fcomi : i.isFcomi = true
    · have has := hi fcomi
      cases i <;> first | exact absurd fcomi Bool.false_ne_true | cases ne <;> exact if_pos has
    · clear hf hi hp
      cases ne <;> cases i <;>
        first
        | rfl
        | exact absurd hr.symm Bool.false_ne_true
        | exact absurd hn.symm Bool.false_ne_true
        | exact absurd (Eq.refl true) fcmov
        | exact absurd (Eq.refl true) fcomi

theorem event_of_control (h : ControlEffect s i u) : u.event = s.event := by
  cases h with
  | loadCw => rw [refreshEs_eq]; rfl
  | storeEnv => rw [State.maskAll, refreshEs_eq]; rfl
  | loadEnv => rw [refreshEs_eq]; rfl
  | restore => rw [refreshEs_eq]; rfl
  | save => simp [State.initFpu, State.storeEnv]
  | _ => rfl

/-- What CheckPending finds, by ES, NE and IGNNE# (R415). -/
theorem pending_eq_clear_iff (s : State) :
    s.pending = .clear ↔ s.sw.es = false ∨ s.ne = false ∧ s.ignne = true := by
  unfold State.pending
  cases s.sw.es <;> cases s.ne <;> cases s.ignne <;> simp

/-- Settles O16: a waiting instruction is CheckPending and a body; where CheckPending finds nothing, or is not called, the
instruction leaves the event. -/
theorem checkPendingHandsOver : Obligations.CheckPendingHandsOver := by
  intro i s
  refine ⟨fun hp hn es => ?_, fun clear t h => ?_⟩
  · refine ⟨fun ne => ?_, fun ne ignne => ?_⟩
    · have run := exec_pendingState hp hn true s.ignne
      rwa [Bool.true_and, pendingState_eq es ne rfl] at run
    · have run := exec_pendingState hp hn false false
      rwa [Bool.false_and, pendingState_eq es ne ignne] at run
  · rcases exec_cases h with ⟨hn, hand⟩ | ⟨-, u, ⟨-, -, runs⟩ | effect, rfl⟩
    · have clear : s.pending = .clear := by
        rw [pending_eq_clear_iff, ← or_assoc] at *
        exact clear.resolve_right (by simp [hn])
      rcases hand with ⟨pending, -⟩ | ⟨pending, -⟩ <;> exact nomatch clear.symm.trans pending
    · exact runs.kept.event
    · rw [State.advance_event]; exact event_of_control effect

/-- Settles O17: the processor lacks the reserved encodings, and FCMOVcc and the FCOMI family where its parameters say so,
and each is refused before anything else. -/
theorem reservedEncodingsRefused : Obligations.ReservedEncodingsRefused := by
  intro i s hp
  have absent : i.isReserved = true ∨ (i.isFcmov = true ∧ s.params.hasFcmov = false) ∨
      (i.isFcomi = true ∧ s.params.hasFcomi = false) := by
    have no := (present_iff s.params i).not.mp (by simp [hp])
    simp only [not_and_or, Bool.not_eq_false, Classical.not_imp, Bool.not_eq_true] at no
    exact no
  rcases absent with reserved | ⟨fcmov, no⟩ | ⟨fcomi, no⟩
  · cases i <;> first | rfl | exact absurd reserved Bool.false_ne_true
  · have no : ¬ s.params.hasFcmov = true := by simp [no]
    cases i <;> first | exact absurd fcmov Bool.false_ne_true | exact if_neg no
  · have no : ¬ s.params.hasFcomi = true := by simp [no]
    cases i <;> first | exact absurd fcomi Bool.false_ne_true | exact if_neg no

/-! ### The exception flags -/

/-- A control instruction that does not clear flags leaves them (R32, R35). -/
theorem exceptions_of_control (h : ControlEffect s i u) (hc : i.clearsFlags = false) :
    u.sw.exceptions = s.sw.exceptions := by
  cases h with
  | init p i hi => rcases hi with rfl | rfl <;> exact nomatch hc
  | clear p i hi => rcases hi with rfl | rfl <;> exact nomatch hc
  | save p m i hi => rcases hi with rfl | rfl <;> exact nomatch hc
  | loadEnv => exact nomatch hc
  | restore => exact nomatch hc
  | loadCw => rw [refreshEs_eq]; rfl
  | storeEnv => rw [State.maskAll, refreshEs_eq]; rfl
  | storeCw => rfl
  | storeSw => rfl
  | storeAx => rfl
  | nothing => rfl

/-- A flag that was 1 stays 1, by its place. -/
theorem exceptions_sticky (hc : i.clearsFlags = false) (h : exec i s = .next t) (b : Nat)
    (set : s.sw.exceptions[b]? = some true) : t.sw.exceptions[b]? = some true := by
  rcases exec_cases h with ⟨-, ⟨-, rfl⟩ | ⟨-, rfl⟩⟩ | ⟨-, u, ⟨-, -, runs⟩ | effect, rfl⟩
  · exact set
  · exact set
  · exact runs.flags.sticky b set
  · exact (congrArg (·[b]?) (exceptions_of_control effect hc)).trans set

/-- Settles O9: the seven flags are the places 0 to 6 of the list that the runs of updates are said to keep. -/
theorem exceptionFlagsAreSticky : Obligations.ExceptionFlagsAreSticky := by
  intro i s t hc h
  have sticky : ∀ b, s.sw.exceptions[b]? = some true → t.sw.exceptions[b]? = some true :=
    fun b => exceptions_sticky hc h b
  simp only [StatusWord.exceptions] at sticky
  refine ⟨?_, ?_, ?_, ?_, ?_, ?_, ?_⟩
  · simpa using sticky 0
  · simpa using sticky 1
  · simpa using sticky 2
  · simpa using sticky 3
  · simpa using sticky 4
  · simpa using sticky 5
  · simpa using sticky 6

/-! ### The invariant -/

theorem tags_loadTags (tw : Word16) (regs : Vector Ext 8) (k : Fin 8) :
    (loadTags tw regs).get k = if tw.extractLsb' (2 * k.val) 2 = 3#2 then .empty else tagOf (regs.get k) := by
  simp only [loadTags, loadTag, Vector.get_eq_getElem, Vector.getElem_ofFn]

/-- FNINIT leaves the invariant's state whatever it finds, memory apart (R352). -/
theorem inv_initFpu (s : State) (hm : memWf s.mem = true) : s.initFpu.Inv where
  memory := hm
  tags k := .inl (by simp [State.initFpu, Vector.get_eq_getElem])
  es := rfl
  busy := rfl
  ferr := nofun

/-- The condition codes are no part of the invariant. -/
theorem inv_freeCodes_freeC1 (h : s.Inv) : s.freeCodes.freeC1.Inv := ⟨h.memory, h.tags, h.es, h.busy, h.ferr⟩

theorem inv_refreshEs_loadEnv (s : State) (e : Env) (hm : memWf s.mem = true) : (s.loadEnv e).refreshEs.Inv := by
  refine State.refreshEs_inv _ hm fun k => ?_
  have tag : (s.loadEnv e).tags.get k = _ := tags_loadTags e.tw s.regs k
  rw [tag]
  split
  · exact .inl rfl
  · exact .inr rfl

theorem inv_of_control (h : ControlEffect s i u) (hs : s.Inv) : u.Inv := by
  obtain ⟨hm, ht, es, busy, ferr⟩ := hs
  cases h with
  | init => exact inv_initFpu s hm
  | clear => exact inv_freeCodes_freeC1 ⟨hm, ht, rfl, rfl, nofun⟩
  | loadCw => exact inv_freeCodes_freeC1 (State.refreshEs_inv _ hm ht)
  | storeCw _ _ _ _ hr => exact ⟨memWf_store _ _ _ _ hm (inRange_le hr), ht, es, busy, ferr⟩
  | storeSw _ _ _ _ hr => exact ⟨memWf_store _ _ _ _ hm (inRange_le hr), ht, es, busy, ferr⟩
  | storeAx => exact ⟨hm, ht, es, busy, ferr⟩
  | loadEnv => exact inv_refreshEs_loadEnv s _ hm
  | storeEnv _ _ _ _ hr => exact State.refreshEs_inv _ (memWf_store _ _ _ _ hm (inRange_le hr)) ht
  | restore => exact inv_refreshEs_loadEnv (s.withRegs _) _ hm
  | save _ _ _ _ hr =>
    have le := inRange_le hr
    exact inv_initFpu _ (memWf_store _ _ _ _ (memWf_store _ _ _ _ hm (by omega)) (by omega))
  | nothing => exact ⟨hm, ht, es, busy, ferr⟩

theorem inv_withEvent (h : s.Inv) (e : HostEvent) : (s.withEvent e).Inv :=
  ⟨h.memory, h.tags, h.es, h.busy, h.ferr⟩

/-- An instruction keeps the invariant. -/
theorem inv_exec (h : exec i s = .next t) (hs : s.Inv) : t.Inv := by
  rcases exec_cases h with ⟨-, ⟨-, rfl⟩ | ⟨frozen, rfl⟩⟩ | ⟨-, u, ⟨-, -, runs⟩ | effect, rfl⟩
  · exact inv_withEvent hs _
  · have es : s.sw.es = true := by
      by_contra no
      exact absurd ((pending_eq_clear_iff s).mpr (.inl (by simpa using no))) (by simp [frozen])
    exact ⟨hs.memory, hs.tags, hs.es, hs.busy, fun _ => es⟩
  · obtain ⟨hm, ht, es, busy, ferr⟩ := runs.inv ⟨hs.memory, hs.tags, hs.es, hs.busy, hs.ferr⟩
    exact ⟨hm, ht, es, busy, ferr⟩
  · obtain ⟨hm, ht, es, busy, ferr⟩ := inv_of_control effect hs
    exact ⟨hm, ht, es, busy, ferr⟩

/-- Settles O7: a step is an instruction on the state with the last hand-over cleared, or the hand-over of the
invalid-opcode exception. -/
theorem stepKeepsInvariant : Obligations.StepKeepsInvariant := by
  intro s t hs h
  unfold step at h
  split at h
  · cases h
  · split at h
    · exact inv_exec h (inv_withEvent hs _)
    · unfold State.undecodable at h
      split at h
      · cases h; exact inv_withEvent (inv_withEvent hs _) _
      · split at h <;> cases h
      all_goals cases h

/-- Settles O6: the state after reset. -/
theorem resetSatisfiesInvariant : Obligations.ResetSatisfiesInvariant where
  memory := memWf_reset
  tags := by decide
  es := rfl
  busy := rfl
  ferr := nofun

/-- Settles O8: each register of the state after reset. -/
theorem resetValues : Obligations.ResetValues :=
  ⟨rfl, rfl, rfl, by decide, rfl, rfl, rfl, rfl⟩

/-! ### The step -/

/-- Settles O4: a step decodes what it fetches, and LOCK is handed to the host. -/
theorem stepRunsDecodedInstruction : Obligations.StepRunsDecodedInstruction := by
  intro s hs
  have step_eq : step s = match s.fetchInstr with
      | .ok i => exec i (s.withEvent .none)
      | .error e => (s.withEvent .none).undecodable e := if_neg (by simp [hs])
  refine ⟨fun i r h => ?_, fun h => ?_⟩
  · have fetched : s.fetchInstr = .ok i := by rw [State.fetchInstr, h]; rfl
    rw [step_eq, fetched]
  · have fetched : s.fetchInstr = .error .lockPrefix := by rw [State.fetchInstr, h]; rfl
    rw [step_eq, fetched]
    exact ⟨_, rfl, rfl, rfl⟩

/-- Settles O3: the decoder run on the six words. -/
theorem decodeWrittenWords : Obligations.DecodeWrittenWords := by
  refine ⟨?_, ?_, ?_, ?_, ?_, ?_⟩ <;> decide

end Sys2Proof.Frames

/-! PROOFS. Encoding and decoding: each part of an instruction's bytes is read back by the part of the decoder that reads
it, and what that part reads is what the encoder writes (spec/30_encoding.md R101 to R107, R123). -/

namespace Sys2Proof.Encoding

open Sys2Proof Sys2Proof.Machine

variable {code32 : Bool} {i j : Instr} {p : List Prefix} {bs r : List Byte} {m : MemForm}

/-! ### Prefixes (R106) -/

theorem prefixOf_byte (q : Prefix) : prefixOf q.byte = some q := by cases q <;> rfl

theorem byte_of_prefixOf {b : Byte} {q : Prefix} (h : prefixOf b = some q) : b = q.byte := by
  revert b q
  decide

theorem prefixOf_opcode1 (lo : BitVec 3) : prefixOf (opcode1 lo) = none := by revert lo; decide

theorem opcode1_ne_wait (lo : BitVec 3) : opcode1 lo ≠ 0x9B#8 := by revert lo; decide

/-- Prefixes end at a byte that is none. -/
theorem takePrefixes_append (p : List Prefix) {b : Byte} (r : List Byte) (hb : prefixOf b = none) :
    takePrefixes (p.map Prefix.byte ++ b :: r) = (p, b :: r) := by
  induction p with
  | nil => simp [takePrefixes, hb]
  | cons q p ih => simp [takePrefixes, prefixOf_byte, ih]

/-- The prefixes taken and the bytes left are the bytes there were. -/
theorem takePrefixes_bytes (bs : List Byte) : (takePrefixes bs).1.map Prefix.byte ++ (takePrefixes bs).2 = bs := by
  induction bs with
  | nil => rfl
  | cons b bs ih =>
    unfold takePrefixes
    split
    · next q hq => simp [ih, byte_of_prefixOf hq]
    · rfl

/-! ### Little-endian displacements (R72) -/

theorem le16_bytes (d : BitVec 16) : le16 (d.extractLsb' 0 8) (d.extractLsb' 8 8) = d := by
  unfold le16
  rw [BitVec.extractLsb'_append_extractLsb'_eq_extractLsb' (by rfl)]
  exact BitVec.extractLsb'_eq_self

theorem le32_bytes (d : BitVec 32) :
    le32 (d.extractLsb' 0 8) (d.extractLsb' 8 8) (d.extractLsb' 16 8) (d.extractLsb' 24 8) = d := by
  unfold le32
  rw [BitVec.extractLsb'_append_extractLsb'_eq_extractLsb' (by rfl),
    BitVec.extractLsb'_append_extractLsb'_eq_extractLsb' (by rfl),
    BitVec.extractLsb'_append_extractLsb'_eq_extractLsb' (by rfl)]
  exact BitVec.extractLsb'_eq_self

theorem extractLsb'_append_zero {w : Nat} (hi : BitVec w) (lo : Byte) : (hi ++ lo).extractLsb' 0 8 = lo :=
  (BitVec.extractLsb'_append_eq_of_add_le (by decide)).trans BitVec.extractLsb'_eq_self

theorem extractLsb'_append_add {w : Nat} (hi : BitVec w) (lo : Byte) (k : Nat) :
    (hi ++ lo).extractLsb' (8 + k) 8 = hi.extractLsb' k 8 := by
  rw [BitVec.extractLsb'_append_eq_of_le (by omega), Nat.add_sub_cancel_left]

theorem bytes16_le (a b : Byte) : bytes16 (le16 a b) = [a, b] := by
  have low : (le16 a b).extractLsb' 0 8 = a := extractLsb'_append_zero b a
  have high : (le16 a b).extractLsb' 8 8 = b := (extractLsb'_append_add b a 0).trans BitVec.extractLsb'_eq_self
  rw [bytes16, low, high]

theorem bytes32_le (a b c d : Byte) : bytes32 (le32 a b c d) = [a, b, c, d] := by
  have first : (le32 a b c d).extractLsb' 0 8 = a := extractLsb'_append_zero _ a
  have second : (le32 a b c d).extractLsb' 8 8 = b :=
    (extractLsb'_append_add _ a 0).trans (extractLsb'_append_zero _ b)
  have third : (le32 a b c d).extractLsb' 16 8 = c :=
    (extractLsb'_append_add _ a 8).trans ((extractLsb'_append_add _ b 0).trans (extractLsb'_append_zero d c))
  have fourth : (le32 a b c d).extractLsb' 24 8 = d :=
    (extractLsb'_append_add _ a 16).trans ((extractLsb'_append_add _ b 8).trans
      ((extractLsb'_append_add d c 0).trans BitVec.extractLsb'_eq_self))
  rw [bytes32, first, second, third, fourth]

theorem takeDisp32_bytes (d : Disp32) (r : List Byte) : takeDisp32 d.mod (d.bytes ++ r) = some (d, r) := by
  cases d with
  | none => rfl
  | d8 d => rfl
  | d32 d => simp [takeDisp32, Disp32.mod, Disp32.bytes, bytes32, le32_bytes]

theorem takeDisp16_bytes (d : Disp16) (r : List Byte) : takeDisp16 d.mod (d.bytes ++ r) = some (d, r) := by
  cases d with
  | none => rfl
  | d8 d => rfl
  | d16 d => simp [takeDisp16, Disp16.mod, Disp16.bytes, bytes16, le16_bytes]

theorem bytes_of_takeDisp32 {md : BitVec 2} {d : Disp32} (h : takeDisp32 md bs = some (d, r)) (hm : md ≠ 3#2) :
    d.mod = md ∧ bs = d.bytes ++ r := by
  obtain rfl | rfl | rfl | rfl := Laws.bit2_cases md
  · obtain ⟨rfl, rfl⟩ : Disp32.none = d ∧ bs = r := by simpa [takeDisp32] using h
    exact ⟨rfl, rfl⟩
  · match bs, h with
    | a :: bs, h =>
      obtain ⟨rfl, rfl⟩ : Disp32.d8 a = d ∧ bs = r := by simpa [takeDisp32] using h
      exact ⟨rfl, rfl⟩
  · match bs, h with
    | a :: b :: c :: e :: bs, h =>
      obtain ⟨rfl, rfl⟩ : Disp32.d32 (le32 a b c e) = d ∧ bs = r := by simpa [takeDisp32] using h
      exact ⟨rfl, by simp [Disp32.bytes, bytes32_le]⟩
  · exact absurd rfl hm

theorem bytes_of_takeDisp16 {md : BitVec 2} {d : Disp16} (h : takeDisp16 md bs = some (d, r)) (hm : md ≠ 3#2) :
    d.mod = md ∧ bs = d.bytes ++ r := by
  obtain rfl | rfl | rfl | rfl := Laws.bit2_cases md
  · obtain ⟨rfl, rfl⟩ : Disp16.none = d ∧ bs = r := by simpa [takeDisp16] using h
    exact ⟨rfl, rfl⟩
  · match bs, h with
    | a :: bs, h =>
      obtain ⟨rfl, rfl⟩ : Disp16.d8 a = d ∧ bs = r := by simpa [takeDisp16] using h
      exact ⟨rfl, rfl⟩
  · match bs, h with
    | a :: b :: bs, h =>
      obtain ⟨rfl, rfl⟩ : Disp16.d16 (le16 a b) = d ∧ bs = r := by simpa [takeDisp16] using h
      exact ⟨rfl, by simp [Disp16.bytes, bytes16_le]⟩
  · exact absurd rfl hm

/-! ### Addressing forms (R103 to R105) -/

theorem regOf_code (x : Reg) : regOf x.code = x := by cases x <;> rfl

theorem code_regOf (x : BitVec 3) : (regOf x).code = x := by revert x; decide

theorem base16Of_code (b : Base16) : base16Of b.code = b := by cases b <;> rfl

theorem code_base16Of (x : BitVec 3) : (base16Of x).code = x := by revert x; decide

theorem indexOf_indexCode {x : Option Reg} (h : x ≠ some .esp) : indexOf (indexCode x) = x := by
  cases x with
  | none => rfl
  | some x =>
    cases x with
    | esp => exact absurd rfl h
    | _ => rfl

theorem indexCode_indexOf (x : BitVec 3) : indexCode (indexOf x) = x := by revert x; decide

theorem indexOf_ne_esp (x : BitVec 3) : indexOf x ≠ some .esp := by revert x; decide

theorem code_eq_four {x : Reg} : x.code = 4#3 ↔ x = .esp := by cases x <;> decide

theorem code_eq_five {x : Reg} : x.code = 5#3 ↔ x = .ebp := by cases x <;> decide

theorem base16_code_eq_six {b : Base16} : b.code = 6#3 ↔ b = .bp := by cases b <;> decide

theorem disp32_mod_eq_zero {d : Disp32} : d.mod = 0#2 ↔ d = .none := by cases d <;> simp [Disp32.mod]

theorem disp16_mod_eq_zero {d : Disp16} : d.mod = 0#2 ↔ d = .none := by cases d <;> simp [Disp16.mod]

/-- A byte of three fields is read back by its fields: the SIB byte and the second opcode byte. -/
theorem fields_of_append (s : BitVec 2) (x b : BitVec 3) :
    (s ++ x ++ b : BitVec 8).extractLsb' 6 2 = s ∧ (s ++ x ++ b : BitVec 8).extractLsb' 3 3 = x ∧
      (s ++ x ++ b : BitVec 8).extractLsb' 0 3 = b := by
  revert s x b; decide

theorem append_of_fields (b : Byte) : (b.extractLsb' 6 2 ++ b.extractLsb' 3 3 ++ b.extractLsb' 0 3 : BitVec 8) = b := by
  revert b; decide

theorem mod_ne_three (m : MemForm) : m.mod ≠ 3#2 := by
  cases m with
  | base _ d | sib _ _ _ d => cases d <;> simp [MemForm.mod, Disp32.mod]
  | base16 _ d => cases d <;> simp [MemForm.mod, Disp16.mod]
  | abs _ | sibAbs _ _ _ | abs16 _ => simp [MemForm.mod]

/-- The decoder reads an expressible addressing form back from its bytes. -/
theorem takeMem_tail (hm : m.expressible = true) (r : List Byte) :
    takeMem m.is32 m.mod m.rm (m.tail ++ r) = some (m, r) := by
  cases m with
  | base x d =>
    obtain ⟨hx, hd⟩ : x ≠ .esp ∧ ¬(x = .ebp ∧ d = .none) := by
      simpa [MemForm.expressible, imp_iff_not_or] using hm
    simp [takeMem, takeMem32, MemForm.is32, MemForm.mod, MemForm.rm, MemForm.tail, code_eq_four, code_eq_five,
      disp32_mod_eq_zero, hx, hd, takeDisp32_bytes, regOf_code]
  | abs d => simp [takeMem, takeMem32, MemForm.is32, MemForm.mod, MemForm.rm, MemForm.tail, bytes32, le32_bytes]
  | sib s x b d =>
    obtain ⟨hx, hd⟩ : x ≠ some .esp ∧ ¬(b = .ebp ∧ d = .none) := by
      simpa [MemForm.expressible, imp_iff_not_or] using hm
    simp only [takeMem, takeMem32, takeSib, MemForm.is32, MemForm.mod, MemForm.rm, MemForm.tail, List.cons_append,
      fields_of_append]
    simp [code_eq_five, disp32_mod_eq_zero, hd, takeDisp32_bytes, regOf_code, indexOf_indexCode hx]
  | sibAbs s x d =>
    have hx : x ≠ some .esp := by simpa [MemForm.expressible] using hm
    simp only [takeMem, takeMem32, takeSib, MemForm.is32, MemForm.mod, MemForm.rm, MemForm.tail, List.cons_append,
      fields_of_append]
    simp [bytes32, le32_bytes, indexOf_indexCode hx]
  | base16 b d =>
    have hd : ¬(b = .bp ∧ d = .none) := by simpa [MemForm.expressible, imp_iff_not_or] using hm
    simp [takeMem, takeMem16, MemForm.is32, MemForm.mod, MemForm.rm, MemForm.tail, base16_code_eq_six,
      disp16_mod_eq_zero, hd, takeDisp16_bytes, base16Of_code]
  | abs16 d => simp [takeMem, takeMem16, MemForm.is32, MemForm.mod, MemForm.rm, MemForm.tail, bytes16, le16_bytes]

/-- What reading an addressing form with fields `md` and `rm` from `bs`, to be left with `r`, has found. -/
structure MemRead (a32 : Bool) (md : BitVec 2) (rm : BitVec 3) (bs : List Byte) (m : MemForm) (r : List Byte) : Prop where
  is32 : m.is32 = a32
  mod : m.mod = md
  rm : m.rm = rm
  expressible : m.expressible = true
  bytes : bs = m.tail ++ r

theorem memRead_of_takeSib {md : BitVec 2} (h : takeSib md bs = some (m, r)) (hm : md ≠ 3#2) :
    MemRead true md 4#3 bs m r := by
  obtain _ | ⟨b, bs⟩ := bs
  · cases h
  have field := append_of_fields b
  simp only [takeSib] at h
  split at h
  · next cond =>
    obtain ⟨hb, rfl⟩ := cond
    match bs, h with
    | a :: c :: d :: e :: bs, h =>
      cases h
      refine ⟨rfl, rfl, rfl, by simp [MemForm.expressible, indexOf_ne_esp], ?_⟩
      rw [hb] at field
      simp [MemForm.tail, indexCode_indexOf, bytes32_le, field]
  · next cond =>
    obtain ⟨⟨d, r'⟩, hd, he⟩ := Option.map_eq_some_iff.1 h
    cases he
    obtain ⟨rfl, rfl⟩ := bytes_of_takeDisp32 hd hm
    refine ⟨rfl, rfl, rfl, ?_, by simp [MemForm.tail, indexCode_indexOf, code_regOf, field]⟩
    have free : ¬(regOf (b.extractLsb' 0 3) = .ebp ∧ d = .none) := by
      rwa [← code_eq_five, code_regOf, ← disp32_mod_eq_zero]
    simpa [MemForm.expressible, indexOf_ne_esp, imp_iff_not_or] using free

theorem memRead_of_takeMem32 {md : BitVec 2} {rm : BitVec 3} (h : takeMem32 md rm bs = some (m, r)) (hm : md ≠ 3#2) :
    MemRead true md rm bs m r := by
  unfold takeMem32 at h
  split at h
  · next hrm => subst hrm; exact memRead_of_takeSib h hm
  · next hsp =>
    split at h
    · next cond =>
      obtain ⟨rfl, rfl⟩ := cond
      match bs, h with
      | a :: b :: c :: d :: bs, h => cases h; exact ⟨rfl, rfl, rfl, rfl, by simp [MemForm.tail, bytes32_le]⟩
    · next cond =>
      obtain ⟨⟨d, r'⟩, hd, he⟩ := Option.map_eq_some_iff.1 h
      cases he
      obtain ⟨rfl, rfl⟩ := bytes_of_takeDisp32 hd hm
      refine ⟨rfl, rfl, code_regOf rm, ?_, rfl⟩
      have free : regOf rm ≠ .esp ∧ ¬(regOf rm = .ebp ∧ d = .none) := by
        rw [← code_eq_five, code_regOf, ← disp32_mod_eq_zero, Ne, ← code_eq_four, code_regOf]
        exact ⟨hsp, cond⟩
      simpa [MemForm.expressible, imp_iff_not_or] using free

theorem memRead_of_takeMem16 {md : BitVec 2} {rm : BitVec 3} (h : takeMem16 md rm bs = some (m, r)) (hm : md ≠ 3#2) :
    MemRead false md rm bs m r := by
  unfold takeMem16 at h
  split at h
  · next cond =>
    obtain ⟨rfl, rfl⟩ := cond
    match bs, h with
    | a :: b :: bs, h => cases h; exact ⟨rfl, rfl, rfl, rfl, by simp [MemForm.tail, bytes16_le]⟩
  · next cond =>
    obtain ⟨⟨d, r'⟩, hd, he⟩ := Option.map_eq_some_iff.1 h
    cases he
    obtain ⟨rfl, rfl⟩ := bytes_of_takeDisp16 hd hm
    refine ⟨rfl, rfl, code_base16Of rm, ?_, rfl⟩
    have free : ¬(base16Of rm = .bp ∧ d = .none) := by
      rwa [← base16_code_eq_six, code_base16Of, ← disp16_mod_eq_zero]
    simpa [MemForm.expressible, imp_iff_not_or] using free

theorem memRead_of_takeMem {a32 : Bool} {md : BitVec 2} {rm : BitVec 3} (h : takeMem a32 md rm bs = some (m, r))
    (hm : md ≠ 3#2) : MemRead a32 md rm bs m r := by
  cases a32
  · exact memRead_of_takeMem16 h hm
  · exact memRead_of_takeMem32 h hm

/-! ### The opcode tables (R107 to R116) -/

/-- The layout of every instruction names its row. -/
theorem opcode_statement : ∀ i : Instr, Laws.Opcode.Statement i
  | .faddM32 p x => Laws.Opcode.faddM32 p x
  | .fmulM32 p x => Laws.Opcode.fmulM32 p x
  | .fcomM32 p x => Laws.Opcode.fcomM32 p x
  | .fcompM32 p x => Laws.Opcode.fcompM32 p x
  | .fsubM32 p x => Laws.Opcode.fsubM32 p x
  | .fsubrM32 p x => Laws.Opcode.fsubrM32 p x
  | .fdivM32 p x => Laws.Opcode.fdivM32 p x
  | .fdivrM32 p x => Laws.Opcode.fdivrM32 p x
  | .faddSt0Sti p x => Laws.Opcode.faddSt0Sti p x
  | .fmulSt0Sti p x => Laws.Opcode.fmulSt0Sti p x
  | .fcomSti p x => Laws.Opcode.fcomSti p x
  | .fcompSti p x => Laws.Opcode.fcompSti p x
  | .fsubSt0Sti p x => Laws.Opcode.fsubSt0Sti p x
  | .fsubrSt0Sti p x => Laws.Opcode.fsubrSt0Sti p x
  | .fdivSt0Sti p x => Laws.Opcode.fdivSt0Sti p x
  | .fdivrSt0Sti p x => Laws.Opcode.fdivrSt0Sti p x
  | .fldM32 p x => Laws.Opcode.fldM32 p x
  | .reservedD9m1 p x => Laws.Opcode.reservedD9m1 p x
  | .fstM32 p x => Laws.Opcode.fstM32 p x
  | .fstpM32 p x => Laws.Opcode.fstpM32 p x
  | .fldenv p x => Laws.Opcode.fldenv p x
  | .fldcw p x => Laws.Opcode.fldcw p x
  | .fnstenv p x => Laws.Opcode.fnstenv p x
  | .fnstcw p x => Laws.Opcode.fnstcw p x
  | .fldSti p x => Laws.Opcode.fldSti p x
  | .fxch p x => Laws.Opcode.fxch p x
  | .fnop p => Laws.Opcode.fnop p
  | .reservedD9D1 p => Laws.Opcode.reservedD9D1 p
  | .reservedD9D2 p x => Laws.Opcode.reservedD9D2 p x
  | .reservedD9D4 p x => Laws.Opcode.reservedD9D4 p x
  | .reservedD9D8 p x => Laws.Opcode.reservedD9D8 p x
  | .fchs p => Laws.Opcode.fchs p
  | .fabs p => Laws.Opcode.fabs p
  | .reservedD9E2 p x => Laws.Opcode.reservedD9E2 p x
  | .ftst p => Laws.Opcode.ftst p
  | .fxam p => Laws.Opcode.fxam p
  | .reservedD9E6 p x => Laws.Opcode.reservedD9E6 p x
  | .fld1 p => Laws.Opcode.fld1 p
  | .fldl2t p => Laws.Opcode.fldl2t p
  | .fldl2e p => Laws.Opcode.fldl2e p
  | .fldpi p => Laws.Opcode.fldpi p
  | .fldlg2 p => Laws.Opcode.fldlg2 p
  | .fldln2 p => Laws.Opcode.fldln2 p
  | .fldz p => Laws.Opcode.fldz p
  | .reservedD9EF p => Laws.Opcode.reservedD9EF p
  | .f2xm1 p => Laws.Opcode.f2xm1 p
  | .fyl2x p => Laws.Opcode.fyl2x p
  | .fptan p => Laws.Opcode.fptan p
  | .fpatan p => Laws.Opcode.fpatan p
  | .fxtract p => Laws.Opcode.fxtract p
  | .fprem1 p => Laws.Opcode.fprem1 p
  | .fdecstp p => Laws.Opcode.fdecstp p
  | .fincstp p => Laws.Opcode.fincstp p
  | .fprem p => Laws.Opcode.fprem p
  | .fyl2xp1 p => Laws.Opcode.fyl2xp1 p
  | .fsqrt p => Laws.Opcode.fsqrt p
  | .fsincos p => Laws.Opcode.fsincos p
  | .frndint p => Laws.Opcode.frndint p
  | .fscale p => Laws.Opcode.fscale p
  | .fsin p => Laws.Opcode.fsin p
  | .fcos p => Laws.Opcode.fcos p
  | .fiaddM32i p x => Laws.Opcode.fiaddM32i p x
  | .fimulM32i p x => Laws.Opcode.fimulM32i p x
  | .ficomM32i p x => Laws.Opcode.ficomM32i p x
  | .ficompM32i p x => Laws.Opcode.ficompM32i p x
  | .fisubM32i p x => Laws.Opcode.fisubM32i p x
  | .fisubrM32i p x => Laws.Opcode.fisubrM32i p x
  | .fidivM32i p x => Laws.Opcode.fidivM32i p x
  | .fidivrM32i p x => Laws.Opcode.fidivrM32i p x
  | .fcmovb p x => Laws.Opcode.fcmovb p x
  | .fcmove p x => Laws.Opcode.fcmove p x
  | .fcmovbe p x => Laws.Opcode.fcmovbe p x
  | .fcmovu p x => Laws.Opcode.fcmovu p x
  | .reservedDAE0 p x => Laws.Opcode.reservedDAE0 p x
  | .reservedDAE8 p => Laws.Opcode.reservedDAE8 p
  | .fucompp p => Laws.Opcode.fucompp p
  | .reservedDAEA p x => Laws.Opcode.reservedDAEA p x
  | .reservedDAEC p x => Laws.Opcode.reservedDAEC p x
  | .reservedDAF0 p x => Laws.Opcode.reservedDAF0 p x
  | .fildM32i p x => Laws.Opcode.fildM32i p x
  | .reservedDBm1 p x => Laws.Opcode.reservedDBm1 p x
  | .fistM32i p x => Laws.Opcode.fistM32i p x
  | .fistpM32i p x => Laws.Opcode.fistpM32i p x
  | .reservedDBm4 p x => Laws.Opcode.reservedDBm4 p x
  | .fldM80 p x => Laws.Opcode.fldM80 p x
  | .reservedDBm6 p x => Laws.Opcode.reservedDBm6 p x
  | .fstpM80 p x => Laws.Opcode.fstpM80 p x
  | .fcmovnb p x => Laws.Opcode.fcmovnb p x
  | .fcmovne p x => Laws.Opcode.fcmovne p x
  | .fcmovnbe p x => Laws.Opcode.fcmovnbe p x
  | .fcmovnu p x => Laws.Opcode.fcmovnu p x
  | .feni p => Laws.Opcode.feni p
  | .fdisi p => Laws.Opcode.fdisi p
  | .fnclex p => Laws.Opcode.fnclex p
  | .fninit p => Laws.Opcode.fninit p
  | .fsetpm p => Laws.Opcode.fsetpm p
  | .reservedDBE5 p => Laws.Opcode.reservedDBE5 p
  | .reservedDBE6 p x => Laws.Opcode.reservedDBE6 p x
  | .fucomi p x => Laws.Opcode.fucomi p x
  | .fcomi p x => Laws.Opcode.fcomi p x
  | .reservedDBF8 p x => Laws.Opcode.reservedDBF8 p x
  | .faddM64 p x => Laws.Opcode.faddM64 p x
  | .fmulM64 p x => Laws.Opcode.fmulM64 p x
  | .fcomM64 p x => Laws.Opcode.fcomM64 p x
  | .fcompM64 p x => Laws.Opcode.fcompM64 p x
  | .fsubM64 p x => Laws.Opcode.fsubM64 p x
  | .fsubrM64 p x => Laws.Opcode.fsubrM64 p x
  | .fdivM64 p x => Laws.Opcode.fdivM64 p x
  | .fdivrM64 p x => Laws.Opcode.fdivrM64 p x
  | .faddStiSt0 p x => Laws.Opcode.faddStiSt0 p x
  | .fmulStiSt0 p x => Laws.Opcode.fmulStiSt0 p x
  | .reservedDCD0 p x => Laws.Opcode.reservedDCD0 p x
  | .fsubrStiSt0 p x => Laws.Opcode.fsubrStiSt0 p x
  | .fsubStiSt0 p x => Laws.Opcode.fsubStiSt0 p x
  | .fdivrStiSt0 p x => Laws.Opcode.fdivrStiSt0 p x
  | .fdivStiSt0 p x => Laws.Opcode.fdivStiSt0 p x
  | .fldM64 p x => Laws.Opcode.fldM64 p x
  | .reservedDDm1 p x => Laws.Opcode.reservedDDm1 p x
  | .fstM64 p x => Laws.Opcode.fstM64 p x
  | .fstpM64 p x => Laws.Opcode.fstpM64 p x
  | .frstor p x => Laws.Opcode.frstor p x
  | .reservedDDm5 p x => Laws.Opcode.reservedDDm5 p x
  | .fnsave p x => Laws.Opcode.fnsave p x
  | .fnstswM16 p x => Laws.Opcode.fnstswM16 p x
  | .ffree p x => Laws.Opcode.ffree p x
  | .reservedDDC8 p x => Laws.Opcode.reservedDDC8 p x
  | .fstSti p x => Laws.Opcode.fstSti p x
  | .fstpSti p x => Laws.Opcode.fstpSti p x
  | .fucom p x => Laws.Opcode.fucom p x
  | .fucomp p x => Laws.Opcode.fucomp p x
  | .reservedDDF0 p x => Laws.Opcode.reservedDDF0 p x
  | .fiaddM16i p x => Laws.Opcode.fiaddM16i p x
  | .fimulM16i p x => Laws.Opcode.fimulM16i p x
  | .ficomM16i p x => Laws.Opcode.ficomM16i p x
  | .ficompM16i p x => Laws.Opcode.ficompM16i p x
  | .fisubM16i p x => Laws.Opcode.fisubM16i p x
  | .fisubrM16i p x => Laws.Opcode.fisubrM16i p x
  | .fidivM16i p x => Laws.Opcode.fidivM16i p x
  | .fidivrM16i p x => Laws.Opcode.fidivrM16i p x
  | .faddp p x => Laws.Opcode.faddp p x
  | .fmulp p x => Laws.Opcode.fmulp p x
  | .reservedDED0 p x => Laws.Opcode.reservedDED0 p x
  | .reservedDED8 p => Laws.Opcode.reservedDED8 p
  | .fcompp p => Laws.Opcode.fcompp p
  | .reservedDEDA p x => Laws.Opcode.reservedDEDA p x
  | .reservedDEDC p x => Laws.Opcode.reservedDEDC p x
  | .fsubrp p x => Laws.Opcode.fsubrp p x
  | .fsubp p x => Laws.Opcode.fsubp p x
  | .fdivrp p x => Laws.Opcode.fdivrp p x
  | .fdivp p x => Laws.Opcode.fdivp p x
  | .fildM16i p x => Laws.Opcode.fildM16i p x
  | .reservedDFm1 p x => Laws.Opcode.reservedDFm1 p x
  | .fistM16i p x => Laws.Opcode.fistM16i p x
  | .fistpM16i p x => Laws.Opcode.fistpM16i p x
  | .fbld p x => Laws.Opcode.fbld p x
  | .fildM64i p x => Laws.Opcode.fildM64i p x
  | .fbstp p x => Laws.Opcode.fbstp p x
  | .fistpM64i p x => Laws.Opcode.fistpM64i p x
  | .reservedDFC0 p x => Laws.Opcode.reservedDFC0 p x
  | .fnstswAx p => Laws.Opcode.fnstswAx p
  | .reservedDFE1 p => Laws.Opcode.reservedDFE1 p
  | .reservedDFE2 p x => Laws.Opcode.reservedDFE2 p x
  | .reservedDFE4 p x => Laws.Opcode.reservedDFE4 p x
  | .fucomip p x => Laws.Opcode.fucomip p x
  | .fcomip p x => Laws.Opcode.fcomip p x
  | .reservedDFF8 p x => Laws.Opcode.reservedDFF8 p x
  | .wait p => Laws.Opcode.wait p
  | .finit p => Laws.Opcode.finit p
  | .fclex p => Laws.Opcode.fclex p
  | .fstcw p x => Laws.Opcode.fstcw p x
  | .fstswM16 p x => Laws.Opcode.fstswM16 p x
  | .fstswAx p => Laws.Opcode.fstswAx p
  | .fstenv p x => Laws.Opcode.fstenv p x
  | .fsave p x => Laws.Opcode.fsave p x


/-! ### Layouts (R101, R107) -/

/-- A layout that is a well-formed instruction's: `Instr.wellFormed` read off the layout. -/
def ShapeWellFormed (code32 : Bool) : Shape → Prop
  | .wait p => prefixesAllowed p = true ∧ p.length + 1 ≤ 15
  | .mem _ p _ _ m =>
    prefixesAllowed p = true ∧ p.length + 2 + m.size ≤ 15 ∧ m.is32 = addr32 code32 p ∧ m.expressible = true
  | .reg _ p _ _ _ => prefixesAllowed p = true ∧ p.length + 2 ≤ 15

/-- The layout has the instruction's prefixes, addressing form and number of opcode bytes. -/
def ShapeFields (i : Instr) : Prop :=
  match i.shape with
  | .wait p => i.prefixes = p ∧ i.memForm = none ∧ i.opcodeSize = 1
  | .mem _ p _ _ m => i.prefixes = p ∧ i.memForm = some m ∧ i.opcodeSize = 2
  | .reg _ p _ _ _ => i.prefixes = p ∧ i.memForm = none ∧ i.opcodeSize = 2

theorem shapeFields (i : Instr) : ShapeFields i := by cases i <;> exact ⟨rfl, rfl, rfl⟩

theorem wellFormed_iff_shape : i.wellFormed code32 = true ↔ ShapeWellFormed code32 i.shape := by
  have fields := shapeFields i
  unfold ShapeFields at fields
  split at fields <;>
    · next hs =>
      obtain ⟨hp, hm, ho⟩ := fields
      simp [hs, ShapeWellFormed, Instr.wellFormed, Instr.size, hp, hm, ho, and_assoc]

/-- The layout with 9BH before it. -/
def fusedShape : Shape → Shape
  | .wait p => .wait p
  | .mem _ p lo reg m => .mem true p lo reg m
  | .reg _ p lo hi rm => .reg true p lo hi rm

theorem shape_of_waitingForm (h : i.waitingForm = some j) : j.shape = fusedShape i.shape := by
  cases i
  case fninit | fnclex | fnstcw | fnstswM16 | fnstswAx | fnstenv | fnsave => cases h; rfl
  all_goals cases h

theorem shape_memInstr (lo reg : BitVec 3) (p : List Prefix) (m : MemForm) :
    (memInstr lo reg p m).shape = .mem false p lo reg m := by
  obtain rfl | rfl | rfl | rfl | rfl | rfl | rfl | rfl := Laws.bit3_cases lo <;>
    obtain rfl | rfl | rfl | rfl | rfl | rfl | rfl | rfl := Laws.bit3_cases reg <;> rfl

theorem shape_regInstr (lo hi rm : BitVec 3) (p : List Prefix) :
    (regInstr lo hi rm p).shape = .reg false p lo hi rm := by
  obtain rfl | rfl | rfl | rfl | rfl | rfl | rfl | rfl := Laws.bit3_cases lo <;>
    obtain rfl | rfl | rfl | rfl | rfl | rfl | rfl | rfl := Laws.bit3_cases hi <;>
      obtain rfl | rfl | rfl | rfl | rfl | rfl | rfl | rfl := Laws.bit3_cases rm <;> rfl

/-! ### Opcode bytes (R100, R101) -/

theorem esc_opcode1 (lo : BitVec 3) :
    (opcode1 lo).extractLsb' 3 5 = 0b11011#5 ∧ (opcode1 lo).extractLsb' 0 3 = lo := by revert lo; decide

theorem opcode1_of_esc {b : Byte} (h : b.extractLsb' 3 5 = 0b11011#5) : opcode1 (b.extractLsb' 0 3) = b := by
  revert b; decide

theorem prefixesAllowed_iff : prefixesAllowed p = true ↔
    p.contains .lock = false ∧ p.contains .repne = false ∧ p.contains .rep = false := by
  simp [prefixesAllowed, and_assoc]

/-! ### ESC instructions (R123) -/

theorem decodeEsc_mem {lo reg : BitVec 3} (h : ShapeWellFormed code32 (.mem false p lo reg m)) (r : List Byte) :
    decodeEsc code32 ((Shape.mem false p lo reg m).bytes ++ r) = .ok (memInstr lo reg p m, r) := by
  obtain ⟨hp, hl, ha, he⟩ := h
  obtain ⟨lock, repne, rep⟩ := prefixesAllowed_iff.1 hp
  have taken : takePrefixes ((Shape.mem false p lo reg m).bytes ++ r) =
      (p, opcode1 lo :: opcode2 m.mod reg m.rm :: (m.tail ++ r)) := by
    simpa [Shape.bytes] using takePrefixes_append p (opcode2 m.mod reg m.rm :: (m.tail ++ r)) (prefixOf_opcode1 lo)
  have mem := takeMem_tail he r
  rw [ha] at mem
  simp only [decodeEsc, taken, esc_opcode1, opcode2, fields_of_append, mod_ne_three, lock, repne, rep, mem, hl]
  simp

theorem decodeEsc_reg {lo hi rm : BitVec 3} (h : ShapeWellFormed code32 (.reg false p lo hi rm)) (r : List Byte) :
    decodeEsc code32 ((Shape.reg false p lo hi rm).bytes ++ r) = .ok (regInstr lo hi rm p, r) := by
  obtain ⟨hp, hl⟩ := h
  obtain ⟨lock, repne, rep⟩ := prefixesAllowed_iff.1 hp
  have taken : takePrefixes ((Shape.reg false p lo hi rm).bytes ++ r) =
      (p, opcode1 lo :: opcode2 3 hi rm :: r) := by
    simpa [Shape.bytes] using takePrefixes_append p (opcode2 3 hi rm :: r) (prefixOf_opcode1 lo)
  simp only [decodeEsc, taken, esc_opcode1, opcode2, fields_of_append, lock, repne, rep, hl]
  simp

/-- The layout an accepted ESC instruction was read from. -/
theorem shape_of_decodeEsc (h : decodeEsc code32 bs = .ok (i, r)) :
    ShapeWellFormed code32 i.shape ∧ bs = i.shape.bytes ++ r ∧ fusedShape i.shape ≠ i.shape := by
  have all := takePrefixes_bytes bs
  unfold decodeEsc at h
  dsimp only at h
  split at h
  · cases h
  next b1 r1 hbs =>
  rw [hbs] at all
  split at h
  · cases h
  next esc =>
  have op1 := opcode1_of_esc (not_not.1 esc)
  split at h
  · cases h
  next lock =>
  split at h
  · cases h
  next rep =>
  have allowed : prefixesAllowed (takePrefixes bs).1 = true := by
    obtain ⟨repne, rep⟩ := Bool.or_eq_false_iff.1 (Bool.eq_false_of_not_eq_true rep)
    exact prefixesAllowed_iff.2 ⟨Bool.eq_false_of_not_eq_true lock, repne, rep⟩
  split at h
  · cases h
  next b2 r2 =>
  have op2 := append_of_fields b2
  split at h
  · next isReg =>
    split at h
    · next len =>
      cases h
      rw [isReg] at op2
      rw [shape_regInstr]
      refine ⟨⟨allowed, len⟩, ?_, by simp [fusedShape]⟩
      simp [Shape.bytes, opcode2, op1, op2, all]
    · cases h
  · next isMem =>
    split at h
    · cases h
    next m r3 taken =>
    have read := memRead_of_takeMem taken isMem
    split at h
    · next len =>
      cases h
      rw [shape_memInstr]
      refine ⟨⟨allowed, len, read.is32, read.expressible⟩, ?_, by simp [fusedShape]⟩
      rw [read.bytes] at all
      simp [Shape.bytes, opcode2, op1, op2, read.mod, read.rm, all]
    · cases h

/-! ### All instructions -/

theorem wellFormed_fusedShape {sh : Shape} : ShapeWellFormed code32 (fusedShape sh) ↔ ShapeWellFormed code32 sh := by
  cases sh <;> rfl

theorem bytes_fusedShape {sh : Shape} (h : fusedShape sh ≠ sh) : (fusedShape sh).bytes = 0x9B#8 :: sh.bytes := by
  cases sh with
  | wait p => exact absurd rfl h
  | mem fw p lo reg m => cases fw <;> simp_all [fusedShape, Shape.bytes]
  | reg fw p lo hi rm => cases fw <;> simp_all [fusedShape, Shape.bytes]

theorem decode_opcode1 (p : List Prefix) (lo : BitVec 3) (bs : List Byte) :
    decode code32 (p.map Prefix.byte ++ opcode1 lo :: bs) =
      decodeEsc code32 (p.map Prefix.byte ++ opcode1 lo :: bs) := by
  simp only [decode, takePrefixes_append p bs (prefixOf_opcode1 lo), opcode1_ne_wait, if_false]

theorem decode_fused {x : Instr × List Byte} (h : decodeFused code32 bs = some x) :
    decode code32 (0x9B#8 :: bs) = .ok x := by
  have taken : takePrefixes (0x9B#8 :: bs) = ([], 0x9B#8 :: bs) := rfl
  simp [decode, taken, h]

theorem decode_wait (hp : prefixesAllowed p = true) (hl : p.length + 1 ≤ 15)
    (hw : p = [] → decodeFused code32 r = none) :
    decode code32 (p.map Prefix.byte ++ 0x9B#8 :: r) = .ok (.wait p, r) := by
  obtain ⟨lock, repne, rep⟩ := prefixesAllowed_iff.1 hp
  have bare : (if p = [] then decodeFused code32 r else none) = none := by
    split
    · next hp => exact hw hp
    · rfl
  simp only [decode, takePrefixes_append p r (show prefixOf 0x9B#8 = none from rfl), lock, repne, rep, bare]
  simp [hl]

/-- An encoding is decoded whatever follows it, but that a bare 9BH is WAIT only before no non-waiting instruction. -/
theorem decode_encode_append (h : i.wellFormed code32 = true)
    (hw : i = .wait [] → decodeFused code32 r = none) : decode code32 (encode i ++ r) = .ok (i, r) := by
  have row := opcode_statement i
  have wf := wellFormed_iff_shape.1 h
  unfold Laws.Opcode.Statement at row
  unfold encode
  split at row
  · next p hs =>
    subst row
    rw [hs] at wf ⊢
    obtain ⟨hp, hl⟩ := wf
    simpa [Shape.bytes] using decode_wait hp hl fun h => hw (by rw [h])
  · next fw p lo reg m hs =>
    rw [hs] at wf ⊢
    have esc := decodeEsc_mem (code32 := code32) (p := p) (lo := lo) (reg := reg) (m := m) wf r
    cases fw
    · simpa [Shape.bytes, decode_opcode1, show memInstr lo reg p m = i from row]
        using esc
    · have fused : decodeFused code32 ((Shape.mem false p lo reg m).bytes ++ r) = some (i, r) := by
        simp [decodeFused, esc, show (memInstr lo reg p m).waitingForm = some i from row]
      simpa [Shape.bytes] using decode_fused fused
  · next fw p lo hi rm hs =>
    rw [hs] at wf ⊢
    have esc := decodeEsc_reg (code32 := code32) (p := p) (lo := lo) (hi := hi) (rm := rm) wf r
    cases fw
    · simpa [Shape.bytes, decode_opcode1, show regInstr lo hi rm p = i from row]
        using esc
    · have fused : decodeFused code32 ((Shape.reg false p lo hi rm).bytes ++ r) = some (i, r) := by
        simp [decodeFused, esc, show (regInstr lo hi rm p).waitingForm = some i from row]
      simpa [Shape.bytes] using decode_fused fused

/-- What the decoder accepts after a bare 9BH is the waiting form of the instruction that follows. -/
theorem encode_of_decodeFused (h : decodeFused code32 bs = some (i, r)) :
    ShapeWellFormed code32 i.shape ∧ 0x9B#8 :: bs = encode i ++ r := by
  unfold decodeFused at h
  split at h
  · next j r' esc =>
    obtain ⟨i', hi, he⟩ := Option.map_eq_some_iff.1 h
    cases he
    obtain ⟨wf, rfl, hf⟩ := shape_of_decodeEsc esc
    rw [encode, shape_of_waitingForm hi, bytes_fusedShape hf, wellFormed_fusedShape]
    exact ⟨wf, rfl⟩
  · cases h

theorem encode_of_decode (h : decode code32 bs = .ok (i, r)) :
    ShapeWellFormed code32 i.shape ∧ bs = encode i ++ r := by
  have all := takePrefixes_bytes bs
  unfold decode at h
  dsimp only at h
  split at h
  · cases h
  next b1 r1 hbs =>
  rw [hbs] at all
  split at h
  · next wait =>
    split at h
    · cases h
    next lock =>
    split at h
    · cases h
    next rep =>
    split at h
    · next len =>
      split at h
      · next x fused =>
        split at fused
        · next none =>
          rw [none, wait] at all
          cases h
          rw [← all]
          exact encode_of_decodeFused fused
        · cases fused
      · cases h
        obtain ⟨repne, rep⟩ := Bool.or_eq_false_iff.1 (Bool.eq_false_of_not_eq_true rep)
        refine ⟨⟨prefixesAllowed_iff.2 ⟨Bool.eq_false_of_not_eq_true lock, repne, rep⟩, len⟩, ?_⟩
        rw [wait] at all
        simpa [encode, Instr.shape, Shape.bytes] using all.symm
    · cases h
  · obtain ⟨wf, bytes, -⟩ := shape_of_decodeEsc h
    exact ⟨wf, bytes⟩

/-- Settles O1: the round trip with nothing after the encoding. -/
theorem decodeOfEncode : Obligations.DecodeOfEncode := by
  intro code32 i h
  simpa using decode_encode_append (r := []) h fun _ => rfl

/-- Settles O2: the layout of what is accepted is well formed, and its bytes are those taken. -/
theorem decodedBytesAreTheEncoding : Obligations.DecodedBytesAreTheEncoding := by
  intro code32 bs i r h
  obtain ⟨wf, bytes⟩ := encode_of_decode h
  exact ⟨wellFormed_iff_shape.2 wf, bytes⟩

/-! ### The bytes in memory (R52) -/

theorem length_tail (m : MemForm) : m.tail.length = m.size := by
  cases m with
  | base _ d => cases d <;> rfl
  | sib _ _ _ d => cases d <;> rfl
  | base16 _ d => cases d <;> rfl
  | abs _ | sibAbs _ _ _ | abs16 _ => rfl

/-- 9BH and at most fifteen bytes (R119). -/
theorem length_bytes_le {sh : Shape} (h : ShapeWellFormed code32 sh) : sh.bytes.length ≤ maxLength := by
  unfold maxLength
  cases sh with
  | wait p =>
    obtain ⟨-, hl⟩ := h
    simp only [Shape.bytes, List.length_append, List.length_map, List.length_singleton]
    omega
  | mem fw p lo reg m =>
    obtain ⟨-, hl, -, -⟩ := h
    cases fw <;> simp [Shape.bytes, length_tail] <;> omega
  | reg fw p lo hi rm =>
    obtain ⟨-, hl⟩ := h
    cases fw <;> simp [Shape.bytes] <;> omega

/-- A list agrees with its elements as far as they are given. -/
theorem eq_append_drop {xs ys : List Byte} (h : ∀ k, k < xs.length → xs[k]? = ys[k]?) :
    ys = xs ++ ys.drop xs.length := by
  have front : xs = ys.take xs.length := by
    refine List.ext_getElem? fun k => ?_
    rw [List.getElem?_take]
    split
    · next hk => exact h k hk
    · next hk => exact List.getElem?_eq_none (not_lt.1 hk)
  conv_lhs => rw [← List.take_append_drop xs.length ys, ← front]

/-- Settles O5: the fetched bytes begin with the encoding, which is decoded whatever follows. -/
theorem stepRunsEncodedBytes : Obligations.StepRunsEncodedBytes := by
  intro s i hs wf hend bytes hw
  have short : i.length ≤ maxLength := length_bytes_le (wellFormed_iff_shape.1 wf)
  have fetched : s.fetch = encode i ++ s.fetch.drop i.length :=
    eq_append_drop fun k hk => by
      rw [bytes k hk, State.fetch,
        fetchFrom_getElem? _ _ _ _ (lt_of_lt_of_le hk short) (lt_of_lt_of_le (Nat.add_lt_add_left hk _) hend)]
      rfl
  have decoded : decode s.code32 (encode i ++ s.fetch.drop i.length) = .ok (i, s.fetch.drop i.length) :=
    decode_encode_append wf fun wait => by rw [wait] at hw ⊢; exact hw rfl
  rw [← fetched] at decoded
  exact (Frames.stepRunsDecodedInstruction s hs).1 i _ decoded

end Sys2Proof.Encoding


/-! PROOFS. How a numeric instruction runs to its end: what its body has reported before it writes the stack, what each write
of the stack then makes of the state, and the frame every instruction leaves. -/

namespace Sys2Proof.Running

open Sys2Proof Sys2Proof.Machine Sys2Proof.DataTransfer Sys2Proof.BasicArithmetic

variable {s t u : State} {i : Instr} {c : Cond} {cs : List Cond} {q : Option FarPtr} {m : MemForm}

/-! ### The body's answer (R11, R47, R52) -/

/-- What a body answers, as the instruction answers it. -/
def finish (i : Instr) : Except Refusal State → Result
  | .ok u => .next (u.advance i.length)
  | .error r => .refused r

theorem nonControl_clear {body : State → Except Refusal State} (hc : s.pending = .clear) (hm : i.memForm = none) :
    s.nonControl i body = finish i (body (begun s i)) := by
  have entry : s.updatePointers i none = begun s i := by rw [begun, hm]; rfl
  simp only [State.nonControl, State.waiting, hc, entry]
  rfl

theorem nonControlMem_clear {n : Nat} {body : Nat → State → Except Refusal State} (hc : s.pending = .clear)
    (hm : i.memForm = some m) (hr : s.inRange m n = true) :
    s.nonControlMem i m n body = finish i (body (s.addr m) (begun s i)) := by
  have entry : s.updatePointers i (some (s.operandPtr i.prefixes m)) = begun s i := by rw [begun, hm]; rfl
  simp only [State.nonControlMem, State.waiting, hc, entry, hr, if_true]
  rfl

/-! ### The frame -/

/-- A numeric instruction that leaves memory and EFLAGS, with its memory operand's pointer. -/
structure Plain (i : Instr) (q : Option FarPtr) (s : State) : Prop where
  records : i.keepsPointers = false
  continues : i.replacesState = false
  eflags : i.isFcomi = false
  stores : i.stored s = none
  operand : i.memForm.map (s.operandPtr i.prefixes) = q

/-- What an instruction that runs to its end records, with its memory operand's pointer (R47). -/
theorem ran_of_runs_operand (he : i.isFcomi = false) (hq : i.memForm.map (s.operandPtr i.prefixes) = q)
    (h : Runs (allowed s i) (begun s i) u) : Ran i q s (u.advance i.length) where
  fip := (ran_of_runs he h).fip
  fdp := by
    rintro p rfl
    have fdp : u.fdp = (i.memForm.map (s.operandPtr i.prefixes)).getD (Config.freeFdp s.draws) := h.kept.fdp
    rw [State.advance_fdp, fdp, hq]
    rfl
  fop := (ran_of_runs he h).fop
  cw := (ran_of_runs he h).cw
  eip := (ran_of_runs he h).eip
  host := (ran_of_runs he h).host

theorem Plain.frame (h : Plain i q s) (hc : s.pending = .clear) (run : exec i s = .next t) :
    Ran i q s t ∧ MemKept s t := by
  obtain ⟨u, runs, rfl⟩ := runs_of_ended hc (exec_ended i s t h.records h.continues run)
  exact ⟨ran_of_runs_operand h.eflags h.operand runs, memKept_of_runs h.stores runs⟩

/-! ### Flags along a run (R405) -/

/-- The exception flags, ES, B and FERR# are those of `u`. -/
structure SameFlags (u t : State) : Prop where
  flags : t.sw.exceptions = u.sw.exceptions
  es : t.sw.es = u.sw.es
  busy : t.sw.b = u.sw.b
  ferr : t.ferr = u.ferr

theorem SameFlags.refl (u : State) : SameFlags u u := ⟨rfl, rfl, rfl, rfl⟩

theorem SameFlags.flagged (h : SameFlags u t) (f : Flagged cs s u) : Flagged cs s t :=
  ⟨h.flags.trans f.flags, h.es.trans f.es, h.busy.trans f.busy, h.ferr.trans f.ferr⟩

theorem SameFlags.advance (h : SameFlags u t) (n : Nat) : SameFlags u (t.advance n) := ⟨h.flags, h.es, h.busy, h.ferr⟩

theorem sameFlags_setC1 (u : State) (b : Bool) : SameFlags u (u.setC1 b) := ⟨rfl, rfl, rfl, rfl⟩

theorem sameFlags_setSt (u : State) (j : StIdx) (v : Ext) : SameFlags u (u.setSt j v) := ⟨rfl, rfl, rfl, rfl⟩

theorem sameFlags_push (u : State) (v : Ext) : SameFlags u (u.push v) := ⟨rfl, rfl, rfl, rfl⟩

theorem sameFlags_writePush (u : State) (v w : Ext) : SameFlags u (u.writePush v w) := ⟨rfl, rfl, rfl, rfl⟩

theorem sameFlags_writeDest (u : State) (d : Dest) (v : Ext) : SameFlags u (u.writeDest d v) := by
  unfold State.writeDest; split <;> exact ⟨rfl, rfl, rfl, rfl⟩

theorem sameFlags_popN (u : State) (n : Nat) : SameFlags u (u.popN n) := by
  induction n generalizing u with
  | zero => exact .refl u
  | succ n ih => exact ⟨(ih u.pop).flags, (ih u.pop).es, (ih u.pop).busy, (ih u.pop).ferr⟩

@[simp] theorem c1_writeDest (u : State) (d : Dest) (v : Ext) : (u.writeDest d v).sw.c1 = u.sw.c1 := by
  unfold State.writeDest; split <;> rfl

/-- The exceptions after a condition depend on the exceptions before it alone. -/
theorem exceptions_setFlag_congr {v w : StatusWord} (h : v.exceptions = w.exceptions) (c : Cond) :
    (v.setFlag c).exceptions = (w.setFlag c).exceptions := by
  simp only [StatusWord.exceptions, List.cons.injEq] at h
  cases c <;> simp [StatusWord.exceptions, StatusWord.setFlag, h]

/-- What a run has reported while it has not yet written the stack. -/
structure Reported (cs : List Cond) (s u : State) : Prop where
  flagged : Flagged cs s u
  stack : StackKept s u
  cw : u.cw = s.cw
  mem : u.mem = s.mem
  eflags : u.eflags = s.eflags
  ne : u.ne = s.ne
  ignne : u.ignne = s.ignne
  draws : u.draws = s.draws
  params : u.params = s.params

theorem flagged_nil (sw : u.sw.exceptions = s.sw.exceptions) (es : u.sw.es = s.sw.es) (busy : u.sw.b = s.sw.b)
    (ferr : u.ferr = s.ferr) : Flagged [] s u :=
  ⟨sw, es.trans (Bool.or_false _).symm, busy.trans (Bool.or_false _).symm, ferr⟩

theorem reported_refl (s : State) : Reported [] s s :=
  ⟨flagged_nil rfl rfl rfl rfl, ⟨rfl, rfl, rfl⟩, rfl, rfl, rfl, rfl, rfl, rfl, rfl⟩

theorem reported_begun (s : State) (i : Instr) : Reported [] s (begun s i) :=
  ⟨flagged_nil rfl rfl rfl rfl, ⟨rfl, rfl, rfl⟩, rfl, rfl, rfl, rfl, rfl, rfl, rfl⟩

theorem reported_start (s : State) (i : Instr) : Reported [] s (start s i) :=
  ⟨flagged_nil rfl rfl rfl rfl, ⟨rfl, rfl, rfl⟩, rfl, rfl, rfl, rfl, rfl, rfl, rfl⟩

/-- A change of the condition codes alone. -/
theorem Reported.codes (h : Reported cs s u) (x y z w : Bool) :
    Reported cs s (u.withSw { u.sw with c3 := x, c2 := y, c1 := z, c0 := w }) :=
  ⟨⟨h.flagged.flags, h.flagged.es, h.flagged.busy, h.flagged.ferr⟩, ⟨h.stack.top, h.stack.regs, h.stack.tags⟩, h.cw,
    h.mem, h.eflags, h.ne, h.ignne, h.draws, h.params⟩

theorem Reported.setC1 (h : Reported cs s u) (b : Bool) : Reported cs s (u.setC1 b) := h.codes _ _ b _

theorem Reported.setC2 (h : Reported cs s u) (b : Bool) : Reported cs s (u.setC2 b) := h.codes _ b _ _

theorem Reported.setCodes (h : Reported cs s u) (x y z : Bool) : Reported cs s (u.setCodes x y z) := h.codes x y _ z

theorem Reported.freeC1 (h : Reported cs s u) : Reported cs s u.freeC1 := h.setC1 _

theorem Reported.masked (h : Reported cs s u) (c : Cond) : u.masked c = s.masked c := by
  rw [State.masked, State.masked, h.cw]

theorem Reported.rc (h : Reported cs s u) : rcOf u.cw = rcOf s.cw := by rw [h.cw]

theorem Reported.st (h : Reported cs s u) (j : StIdx) : u.st j = s.st j := by
  rw [State.st, State.st, State.phys, State.phys, h.stack.top, h.stack.regs]

theorem Reported.stTag (h : Reported cs s u) (j : StIdx) : u.stTag j = s.stTag j := by
  rw [State.stTag, State.stTag, State.phys, State.phys, h.stack.top, h.stack.tags]

theorem Reported.stEmpty (h : Reported cs s u) (j : StIdx) : u.stEmpty j = s.stEmpty j := by
  rw [State.stEmpty, State.stEmpty, h.stTag]

theorem Reported.pushOverflows (h : Reported cs s u) : u.pushOverflows = s.pushOverflows := by
  rw [State.pushOverflows, State.pushOverflows, h.stEmpty]

theorem Reported.numerics (h : Reported cs s u) : u.numerics = s.numerics := by
  rw [State.numerics, State.numerics, h.params]

/-- A further condition (R405). -/
theorem Reported.signal (h : Reported cs s u) (c : Cond) : Reported (cs ++ [c]) s (u.signal c) where
  flagged := by
    have masked := h.masked c
    refine ⟨?_, ?_, ?_, ?_⟩
    · rw [State.signal_exceptions, List.foldl_append]
      exact exceptions_setFlag_congr h.flagged.flags c
    · rw [es_signal, h.flagged.es, masked]; simp [Bool.or_assoc]
    · rw [b_signal, h.flagged.busy, masked]; simp [Bool.or_assoc]
    · rw [ferr_signal, masked, State.ferrPending, h.flagged.ferr, h.ne, h.ignne, h.draws, List.any_append, List.any_cons,
        List.any_nil,
        Bool.or_false]
      cases cs.any fun c => !s.masked c <;> cases s.masked c <;> cases hf : s.ferr <;> simp [State.ferrPending, hf]
  stack := ⟨(State.signal_top ..).trans h.stack.top, (State.signal_regs ..).trans h.stack.regs,
    (State.signal_tags ..).trans h.stack.tags⟩
  cw := (State.signal_cw ..).trans h.cw
  mem := (State.signal_mem ..).trans h.mem
  eflags := (State.signal_eflags ..).trans h.eflags
  ne := (State.signal_ne ..).trans h.ne
  ignne := (State.signal_ignne ..).trans h.ignne
  draws := (State.signal_draws ..).trans h.draws
  params := (State.signal_params ..).trans h.params

/-! ### The operands a run still finds -/

theorem Reported.stOperand (h : Reported cs s u) (j : StIdx) : u.stOperand j = s.stOperand j := by
  rw [State.stOperand, State.stOperand, h.st, h.stEmpty]

theorem stEmpty_iff (s : State) (j : StIdx) : s.stEmpty j = true ↔ s.stTag j = .empty := beq_iff_eq

theorem stEmpty_eq_false (h : s.stTag j ≠ .empty) : s.stEmpty j = false :=
  Bool.eq_false_of_not_eq_true fun e => h ((stEmpty_iff s j).1 e)

theorem pushOverflows_eq_false (h : s.stTag 7#3 = .empty) : s.pushOverflows = false := by
  rw [State.pushOverflows, (stEmpty_iff s 7#3).2 h]; rfl

theorem pushOverflows_eq_true (h : s.stTag 7#3 ≠ .empty) : s.pushOverflows = true := by
  rw [State.pushOverflows, stEmpty_eq_false h]; rfl

/-! ### The stack after each write (R180, R181, R241) -/

theorem regs_setSt (u : State) (j : StIdx) (v : Ext) (k : BitVec 3) :
    (u.setSt j v).regs.get k.toFin = if k = u.sw.top + j then v else u.regs.get k.toFin := get_set ..

theorem tags_setSt (u : State) (j : StIdx) (v : Ext) (k : BitVec 3) :
    (u.setSt j v).tags.get k.toFin = if k = u.sw.top + j then tagOf v else u.tags.get k.toFin := get_set ..

theorem tags_pop (u : State) (k : BitVec 3) :
    u.pop.tags.get k.toFin = if k = u.sw.top then .empty else u.tags.get k.toFin := get_set ..

theorem regs_push (u : State) (v : Ext) (k : BitVec 3) :
    (u.push v).regs.get k.toFin = if k = u.sw.top - 1#3 then v else u.regs.get k.toFin := by
  have h := regs_setSt (u.withTop (u.sw.top - 1#3)) 0#3 v k
  rw [BitVec.add_zero] at h
  exact h

theorem tags_push (u : State) (v : Ext) (k : BitVec 3) :
    (u.push v).tags.get k.toFin = if k = u.sw.top - 1#3 then tagOf v else u.tags.get k.toFin := by
  have h := tags_setSt (u.withTop (u.sw.top - 1#3)) 0#3 v k
  rw [BitVec.add_zero] at h
  exact h

theorem othersKept_of_stack (h : StackKept s u) (ks : List (BitVec 3)) : OthersKept ks s u := fun j _ => by
  rw [h.regs, h.tags]; exact ⟨rfl, rfl⟩

theorem Reported.stackKept (h : Reported cs s u) (n : Nat) : StackKept s (u.advance n) :=
  ⟨h.stack.top, h.stack.regs, h.stack.tags⟩

theorem Reported.wrote (h : Reported cs s u) (j : StIdx) (v : Ext) (n : Nat) :
    Wrote j v s ((u.setSt j v).advance n) := by
  refine wrote_setSt v n h.stack.top fun k hk => ?_
  have other : k ≠ u.sw.top + j := by rw [h.stack.top]; simpa using hk
  rw [State.advance_regs, State.advance_tags, regs_setSt, tags_setSt, if_neg other, if_neg other, h.stack.regs,
    h.stack.tags]
  exact ⟨rfl, rfl⟩

theorem Reported.popped (h : Reported cs s u) (n : Nat) : Popped s (u.pop.advance n) := by
  refine ⟨congrArg (· + 1#3) h.stack.top, h.stack.regs, ?_, fun k hk => ?_⟩
  · rw [State.advance_tags, tags_pop, h.stack.top, if_pos rfl]
  · have other : k ≠ u.sw.top := by rw [h.stack.top]; simpa using hk
    rw [State.advance_tags, tags_pop, if_neg other, h.stack.tags]
    exact ⟨congrArg (Vector.get · k.toFin) h.stack.regs, rfl⟩

/-- The registers after a write and a pop. -/
theorem regs_setSt_pop (u : State) (j : StIdx) (v : Ext) (k : BitVec 3) :
    (u.setSt j v).pop.regs.get k.toFin = if k = u.sw.top + j then v else u.regs.get k.toFin := regs_setSt u j v k

theorem tags_setSt_pop (u : State) (j : StIdx) (v : Ext) (k : BitVec 3) :
    (u.setSt j v).pop.tags.get k.toFin =
      if k = u.sw.top then .empty else if k = u.sw.top + j then tagOf v else u.tags.get k.toFin :=
  (tags_pop (u.setSt j v) k).trans (by rw [tags_setSt]; rfl)

theorem Reported.wrotePopped (h : Reported cs s u) (j : StIdx) (v : Ext) (n : Nat) :
    WrotePopped j v s ((u.setSt j v).pop.advance n) := by
  have top := h.stack.top
  have apart : j ≠ 0#3 → s.sw.top ≠ s.sw.top + j := by
    intro hj e
    exact hj (by simpa using e)
  refine ⟨congrArg (· + 1#3) top, ?_, fun hj => ?_, ?_, fun hj => ?_, fun k hk => ?_⟩
  · rw [State.advance_regs, regs_setSt_pop, top, if_pos rfl]
  · rw [State.advance_tags, tags_setSt_pop, top, if_neg (apart hj).symm, if_pos rfl]
  · rw [State.advance_tags, tags_setSt_pop, top, if_pos rfl]
  · rw [State.advance_regs, regs_setSt_pop, top, if_neg (apart hj), h.stack.regs]
  · obtain ⟨dest, freed⟩ : k ≠ s.sw.top + j ∧ k ≠ s.sw.top := by simpa using hk
    rw [State.advance_regs, State.advance_tags, regs_setSt_pop, tags_setSt_pop, top, if_neg dest, if_neg freed,
      if_neg dest, h.stack.regs, h.stack.tags]
    exact ⟨rfl, rfl⟩

theorem Reported.delivered (h : Reported cs s u) (d : Dest) (v : Ext) (n : Nat) :
    Delivered d v s ((u.writeDest d v).advance n) := by
  unfold Delivered State.writeDest
  split
  · exact h.wrotePopped d.i v n
  · exact h.wrote d.i v n

theorem Reported.pushed (h : Reported cs s u) (v : Ext) (n : Nat) : Pushed v s ((u.push v).advance n) := by
  refine ⟨congrArg (· - 1#3) h.stack.top, ?_, ?_, fun k hk => ?_⟩
  · exact (st_setSt (u.withTop _) 0#3 0#3 v).trans (if_pos rfl)
  · exact (stTag_setSt (u.withTop _) 0#3 0#3 v).trans (if_pos rfl)
  · have other : k ≠ u.sw.top - 1#3 := by rw [h.stack.top]; simpa using hk
    rw [State.advance_regs, State.advance_tags, regs_push, tags_push, if_neg other, if_neg other, h.stack.regs,
      h.stack.tags]
    exact ⟨rfl, rfl⟩

theorem sub_one_add_one (x : BitVec 3) : x - 1#3 + 1#3 = x := by revert x; decide

theorem ne_sub_one (x : BitVec 3) : x ≠ x - 1#3 := by revert x; decide

/-- The registers after a write of ST(0) and a push. -/
theorem regs_writePush (u : State) (v w : Ext) (k : BitVec 3) :
    (u.writePush v w).regs.get k.toFin =
      if k = u.sw.top - 1#3 then w else if k = u.sw.top then v else u.regs.get k.toFin := by
  rw [State.writePush, regs_push, regs_setSt, BitVec.add_zero]; rfl

theorem tags_writePush (u : State) (v w : Ext) (k : BitVec 3) :
    (u.writePush v w).tags.get k.toFin =
      if k = u.sw.top - 1#3 then tagOf w else if k = u.sw.top then tagOf v else u.tags.get k.toFin := by
  rw [State.writePush, tags_push, tags_setSt, BitVec.add_zero]; rfl

theorem Reported.wrotePushed (h : Reported cs s u) (v w : Ext) (n : Nat) :
    WrotePushed v w s ((u.writePush v w).advance n) := by
  have top := h.stack.top
  have source : ((u.writePush v w).advance n).phys 1#3 = u.sw.top := sub_one_add_one u.sw.top
  refine ⟨congrArg (· - 1#3) top, ?_, ?_, ?_, ?_, fun k hk => ?_⟩
  · rw [State.st, source, State.advance_regs, regs_writePush, if_neg (ne_sub_one _), if_pos rfl]
  · rw [State.stTag, source, State.advance_tags, tags_writePush, if_neg (ne_sub_one _), if_pos rfl]
  · exact (st_setSt ((u.setSt 0#3 v).withTop _) 0#3 0#3 w).trans (if_pos rfl)
  · exact (stTag_setSt ((u.setSt 0#3 v).withTop _) 0#3 0#3 w).trans (if_pos rfl)
  · obtain ⟨other, fresh⟩ : k ≠ s.sw.top ∧ k ≠ s.sw.top - 1#3 := by simpa using hk
    rw [State.advance_regs, State.advance_tags, regs_writePush, tags_writePush, top, if_neg fresh, if_neg fresh,
      if_neg other, if_neg other, h.stack.regs, h.stack.tags]
    exact ⟨rfl, rfl⟩

/-! ### The response to a condition (R172, R405) -/

theorem finish_ok (i : Instr) (u : State) : finish i (.ok u) = .next (u.advance i.length) := rfl

/-- An instruction that answers a condition: what the masked response does, and the stop of the unmasked one. -/
theorem Plain.responds {f : State → State} {done : State → Prop} (h : Plain i q s) (hc : s.pending = .clear)
    (r : Reported [] s u) (run : exec i s = finish i (.ok (u.respond c f))) (same : ∀ v, SameFlags v (f v))
    (hd : Reported [c] s (u.signal c) → done ((f (u.signal c)).advance i.length)) : Responds i q s c done := by
  have signalled : Reported [c] s (u.signal c) := r.signal c
  have masked := r.masked c
  rw [finish_ok] at run
  obtain ⟨ran, mem⟩ := h.frame hc run
  refine ⟨_, run, ran, mem, ?_, ?_⟩
  · unfold State.respond
    split
    · exact ((same _).advance _).flagged signalled.flagged
    · exact ((SameFlags.refl _).advance _).flagged signalled.flagged
  · unfold State.respond
    rw [masked]
    split
    · exact hd signalled
    · exact signalled.stackKept _

/-- A stack underflow, which leaves C1 0 whatever the response (R182, R406). -/
theorem Plain.underflows {f : State → State} {done : State → Prop} (h : Plain i q s) (hc : s.pending = .clear)
    (r : Reported [] s u) (run : exec i s = finish i (.ok (u.respond .isUnder f))) (same : ∀ v, SameFlags v (f v))
    (c1 : ∀ v, (f v).sw.c1 = v.sw.c1) (hd : Reported [.isUnder] s (u.signal .isUnder) →
      done ((f (u.signal .isUnder)).advance i.length)) :
    Completes i s fun t =>
      Ran i q s t ∧ MemKept s t ∧ t.sw.c1 = false ∧ Flagged [.isUnder] s t ∧
        if s.masked .isUnder then done t else StackKept s t := by
  obtain ⟨t, answer, ran, mem, flagged, ends⟩ := h.responds hc r run same hd
  refine ⟨t, answer, ran, mem, ?_, flagged, ends⟩
  rw [run, finish_ok] at answer
  cases answer
  have clear := c1_signal_isUnder u
  unfold State.respond
  split
  · rw [State.advance_sw, c1, clear]
  · rw [State.advance_sw, clear]

end Sys2Proof.Running


/-! PROOFS. The loads of spec/41_data_transfer.md and spec/42_load_constants.md: each pushes its value, or answers the
condition its operand or the stack gives (R201 to R203, R209, R220, R230 to R237). -/

namespace Sys2Proof.Loads

open Sys2Proof Sys2Proof.Machine Sys2Proof.DataTransfer Sys2Proof.BasicArithmetic Sys2Proof.Running

variable {s t u : State} {i : Instr} {p : List Prefix} {m : MemForm} {j : StIdx} {v : Ext} {x : Operand}
  {q : Option FarPtr} {n : Nat}

/-! ### What each load does where no exception is pending -/

/-- A load that pushes `v` unchecked. -/
def Pushes (i : Instr) (q : Option FarPtr) (v : Ext) (s : State) : Prop :=
  Plain i q s ∧ exec i s = finish i (.ok ((start s i).loadPush v))

/-- A load that pushes the real operand `x` with the checks of R201. -/
def Converts (i : Instr) (q : Option FarPtr) (x : Operand) (s : State) : Prop :=
  Plain i q s ∧ exec i s = finish i (.ok ((start s i).loadReal x))

theorem converts_fldM32 (hc : s.pending = .clear) (hr : s.inRange m 4 = true) :
    Converts (.fldM32 p m) (some (s.operandPtr p m)) (s.single (s.addr m)) s := by
  refine ⟨⟨rfl, rfl, rfl, rfl, rfl⟩, ?_⟩
  change execFldM32 p m s = _
  exact nonControlMem_clear hc rfl hr

theorem converts_fldM64 (hc : s.pending = .clear) (hr : s.inRange m 8 = true) :
    Converts (.fldM64 p m) (some (s.operandPtr p m)) (s.double (s.addr m)) s := by
  refine ⟨⟨rfl, rfl, rfl, rfl, rfl⟩, ?_⟩
  change execFldM64 p m s = _
  exact nonControlMem_clear hc rfl hr

theorem pushes_fldM80 (hc : s.pending = .clear) (hr : s.inRange m 10 = true) :
    Pushes (.fldM80 p m) (some (s.operandPtr p m)) (BitVec.ofNat 80 (s.read (s.addr m) 10)) s := by
  refine ⟨⟨rfl, rfl, rfl, rfl, rfl⟩, ?_⟩
  change execFldM80 p m s = _
  exact nonControlMem_clear hc rfl hr

theorem pushes_fildM16i (hc : s.pending = .clear) (hr : s.inRange m 2 = true) :
    Pushes (.fildM16i p m) (some (s.operandPtr p m)) (s.int (s.addr m) 2).val s := by
  refine ⟨⟨rfl, rfl, rfl, rfl, rfl⟩, ?_⟩
  change execFildM16i p m s = _
  exact nonControlMem_clear hc rfl hr

theorem pushes_fildM32i (hc : s.pending = .clear) (hr : s.inRange m 4 = true) :
    Pushes (.fildM32i p m) (some (s.operandPtr p m)) (s.int (s.addr m) 4).val s := by
  refine ⟨⟨rfl, rfl, rfl, rfl, rfl⟩, ?_⟩
  change execFildM32i p m s = _
  exact nonControlMem_clear hc rfl hr

theorem pushes_fildM64i (hc : s.pending = .clear) (hr : s.inRange m 8 = true) :
    Pushes (.fildM64i p m) (some (s.operandPtr p m)) (s.int (s.addr m) 8).val s := by
  refine ⟨⟨rfl, rfl, rfl, rfl, rfl⟩, ?_⟩
  change execFildM64i p m s = _
  exact nonControlMem_clear hc rfl hr

theorem pushes_fbld (hc : s.pending = .clear) (hr : s.inRange m 10 = true) :
    Pushes (.fbld p m) (some (s.operandPtr p m))
      ((extOfBcd (BitVec.ofNat 80 (s.read (s.addr m) 10))).getD (Config.freeExt s.draws)) s := by
  refine ⟨⟨rfl, rfl, rfl, rfl, rfl⟩, ?_⟩
  change execFbld p m s = _
  exact nonControlMem_clear hc rfl hr

theorem exec_fldSti (p : List Prefix) (j : StIdx) (hc : s.pending = .clear) :
    exec (.fldSti p j) s = finish (.fldSti p j) (.ok ((start s (.fldSti p j)).loadSt j)) := by
  change execFldSti p j s = _
  exact nonControl_clear hc rfl

theorem plain_fldSti (p : List Prefix) (j : StIdx) (s : State) : Plain (.fldSti p j) none s :=
  ⟨rfl, rfl, rfl, rfl, rfl⟩

theorem pushes_fldSti (hc : s.pending = .clear) (hj : s.stTag j ≠ .empty) :
    Pushes (.fldSti p j) none (s.st j) s := by
  have full : (start s (.fldSti p j)).stEmpty j = false := stEmpty_eq_false hj
  refine ⟨plain_fldSti p j s, (exec_fldSti p j hc).trans ?_⟩
  rw [State.loadSt, full]
  rfl

theorem pushes_loadConstant {k : RoundMode → Ext} (hc : s.pending = .clear) (h : Plain i none s)
    (hm : i.memForm = none) (he : exec i s = loadConstant i k s) : Pushes i none (k (rcOf s.cw)) s :=
  ⟨h, he.trans (nonControl_clear hc hm)⟩

/-! ### Its outcome -/

theorem Pushes.completes (h : Pushes i q v s) (hc : s.pending = .clear) (h7 : s.stTag 7#3 = .empty) :
    Completes i s fun t => Ran i q s t ∧ MemKept s t ∧ Pushed v s t ∧ t.sw.c1 = false ∧ Flagged [] s t := by
  obtain ⟨plain, run⟩ := h
  have reported : Reported [] s ((start s i).setC1 false) := (reported_start s i).setC1 false
  have free : (start s i).pushOverflows = false := ((reported_start s i).pushOverflows).trans (pushOverflows_eq_false h7)
  rw [State.loadPush, free, if_neg Bool.false_ne_true, finish_ok] at run
  obtain ⟨ran, mem⟩ := plain.frame hc run
  exact ⟨_, run, ran, mem, reported.pushed v _, rfl, ((sameFlags_push _ v).advance _).flagged reported.flagged⟩

/-- A stack overflow is answered by the push of the real indefinite (R183). -/
theorem overflows (plain : Plain i q s) (hc : s.pending = .clear)
    (run : exec i s = finish i (.ok ((start s i).respond .isOver State.overflowPush))) :
    Completes i s fun t =>
      MemKept s t ∧ t.sw.c1 = true ∧ Flagged [.isOver] s t ∧
        if s.masked .isOver then Pushed realIndefinite s t else StackKept s t := by
  obtain ⟨t, answer, -, mem, flagged, ends⟩ :=
    plain.responds (done := Pushed realIndefinite s) hc (reported_start s i) run
      (fun v => sameFlags_push v realIndefinite) fun r => r.pushed realIndefinite _
  refine ⟨t, answer, mem, ?_, flagged, ends⟩
  rw [run, finish_ok] at answer
  cases answer
  have c1 : ((start s i).signal .isOver).sw.c1 = true := by rw [State.signal_sw]; split <;> rfl
  unfold State.respond
  split <;> exact c1

theorem Pushes.overflow (h : Pushes i q v s) (h7 : s.stTag 7#3 ≠ .empty) :
    exec i s = finish i (.ok ((start s i).respond .isOver State.overflowPush)) := by
  have full : (start s i).pushOverflows = true := ((reported_start s i).pushOverflows).trans (pushOverflows_eq_true h7)
  rw [h.2, State.loadPush, full, if_pos rfl]

theorem Converts.overflow (h : Converts i q x s) (h7 : s.stTag 7#3 ≠ .empty) :
    exec i s = finish i (.ok ((start s i).respond .isOver State.overflowPush)) := by
  have full : (start s i).pushOverflows = true := ((reported_start s i).pushOverflows).trans (pushOverflows_eq_true h7)
  rw [h.2, State.loadReal, full, if_pos rfl]

/-- The checks of R201 where the register to be filled is empty. -/
theorem loadReal_empty (h7 : u.pushOverflows = false) (x : Operand) :
    u.loadReal x =
      if classOf x.val = .snan then u.respond .ia fun t => (t.setC1 false).push (quiet x.val)
      else if x.denormal = true then u.respond .d fun t => (t.setC1 false).push x.val
      else (u.setC1 false).push x.val := by
  simp [State.loadReal, h7]

theorem Converts.run (h : Converts i q x s) (h7 : s.stTag 7#3 = .empty) :
    exec i s = finish i (.ok (
      if classOf x.val = .snan then (start s i).respond .ia fun t => (t.setC1 false).push (quiet x.val)
      else if x.denormal = true then (start s i).respond .d fun t => (t.setC1 false).push x.val
      else ((start s i).setC1 false).push x.val)) := by
  rw [h.2, loadReal_empty (((reported_start s i).pushOverflows).trans (pushOverflows_eq_false h7))]

theorem Converts.number (h : Converts i q x s) (hc : s.pending = .clear) (h7 : s.stTag 7#3 = .empty)
    (quietOperand : classOf x.val ≠ .snan) (masked : x.denormal = true → s.masked .d = true) :
    Completes i s fun t =>
      Ran i q s t ∧ MemKept s t ∧ Pushed x.val s t ∧ t.sw.c1 = false ∧ Flagged (resultConds x.denormal false) s t := by
  have run := h.run h7
  rw [if_neg quietOperand] at run
  have ending : ∀ {cs} {w : State}, Reported cs s w →
      exec i s = .next (((w.setC1 false).push x.val).advance i.length) → Completes i s fun t =>
        Ran i q s t ∧ MemKept s t ∧ Pushed x.val s t ∧ t.sw.c1 = false ∧ Flagged cs s t := by
    intro cs w reported run
    obtain ⟨ran, mem⟩ := h.1.frame hc run
    exact ⟨_, run, ran, mem, (reported.setC1 false).pushed x.val _, rfl,
      ((sameFlags_push _ x.val).advance _).flagged (reported.setC1 false).flagged⟩
  cases den : x.denormal with
  | false =>
    rw [den, if_neg Bool.false_ne_true, finish_ok] at run
    exact ending (reported_start s i) run
  | true =>
    rw [den, if_pos rfl, respond_masked (s := start s i) _ (masked den), finish_ok] at run
    exact ending ((reported_start s i).signal .d) run

theorem Converts.stops (h : Converts i q x s) (hc : s.pending = .clear) (h7 : s.stTag 7#3 = .empty)
    (quietOperand : classOf x.val ≠ .snan) (den : x.denormal = true) (unmasked : s.masked .d = false) :
    Completes i s fun t => Ran i q s t ∧ MemKept s t ∧ StackKept s t ∧ Flagged [.d] s t := by
  have run := h.run h7
  rw [if_neg quietOperand, if_pos den] at run
  obtain ⟨t, answer, ran, mem, flagged, ends⟩ :=
    h.1.responds (done := fun _ => True) hc (reported_start s i) run (fun v => ⟨rfl, rfl, rfl, rfl⟩) fun _ => trivial
  exact ⟨t, answer, ran, mem, by simpa [unmasked] using ends, flagged⟩

theorem Converts.snan (h : Converts i q x s) (hc : s.pending = .clear) (h7 : s.stTag 7#3 = .empty)
    (signalling : classOf x.val = .snan) :
    Responds i q s .ia fun t => Pushed (quiet x.val) s t ∧ t.sw.c1 = false := by
  have run := h.run h7
  rw [if_pos signalling] at run
  exact h.1.responds hc (reported_start s i) run (fun v => ⟨rfl, rfl, rfl, rfl⟩)
    fun r => ⟨(r.setC1 false).pushed _ _, rfl⟩

/-! ### A memory denormal is no SNaN (R140, R152) -/

theorem expOf_mkExt (s : Bool) (e : BitVec 15) (f : BitVec 64) : expOf (mkExt s e f) = e := by
  change (BitVec.ofBool s ++ e ++ f).extractLsb' 64 15 = e
  rw [BitVec.extractLsb'_append_eq_of_le (by omega), BitVec.extractLsb'_append_eq_of_add_le (by omega)]
  exact BitVec.extractLsb'_eq_self

theorem expOf_of_snan (h : classOf v = .snan) : expOf v = 0x7FFF#15 := by
  unfold classOf at h
  dsimp only at h
  split at h
  · split at h
    · cases h
    · split at h <;> cases h
  · split at h
    · assumption
    · split at h <;> cases h

/-- A number whose exponent is below the greatest has an encoding that is no NaN. -/
theorem expOf_extOfNum_ne {y : Sys2Proof.Num} (h : (y.n.log2 : Int) + y.k < 16384) : expOf (extOfNum y) ≠ 0x7FFF#15 := by
  rw [extOfNum, expOf_mkExt]
  have small : (encodeFinite fmtExt y.n y.k).1 < 32767 := by
    have emax : fmtExt.emax = 16383 := rfl
    unfold encodeFinite
    dsimp only
    split
    · decide
    · split
      · rw [emax]; dsimp only; omega
      · exact Nat.zero_lt_succ _
  intro e
  have value := congrArg BitVec.toNat e
  simp only [BitVec.toNat_ofNat] at value
  omega

theorem log2_toNat_le {w : Nat} (f : BitVec w) : f.toNat.log2 ≤ w :=
  (Nat.log2_le_self f.toNat).trans f.isLt.le |> fun _ => by
    rcases Nat.eq_zero_or_pos f.toNat with zero | pos
    · simp [zero]
    · exact ((Nat.log2_lt pos.ne').2 f.isLt).le

theorem single_not_snan (h : (s.single n).denormal = true) : classOf (s.single n).val ≠ .snan := by
  intro signalling
  have e := expOf_of_snan signalling
  simp only [State.single, isDenormalSingle, Bool.and_eq_true, beq_iff_eq] at h
  simp only [State.single, extOfSingle, h.1] at e
  have log := log2_toNat_le ((BitVec.ofNat 32 (s.read n 4)).extractLsb' 0 23)
  exact expOf_extOfNum_ne (by simp only [BitVec.toNat_ofNat, Nat.zero_mod, if_true]; omega) e

theorem double_not_snan (h : (s.double n).denormal = true) : classOf (s.double n).val ≠ .snan := by
  intro signalling
  have e := expOf_of_snan signalling
  simp only [State.double, isDenormalDouble, Bool.and_eq_true, beq_iff_eq] at h
  simp only [State.double, extOfDouble, h.1] at e
  have log := log2_toNat_le ((BitVec.ofNat 64 (s.read n 8)).extractLsb' 0 52)
  exact expOf_extOfNum_ne (by simp only [BitVec.toNat_ofNat, Nat.zero_mod, if_true]; omega) e

/-! ### The obligations -/

/-- Settles O23: both forms convert, and their operand is checked in the order of R201. -/
theorem loadRealPushes : Obligations.LoadRealPushes := by
  intro p m s hc h7 i n x row hr
  have converts : Converts i (some (s.operandPtr p m)) x s ∧ (x.denormal = true → classOf x.val ≠ .snan) := by
    simp only [List.mem_cons, List.not_mem_nil, Prod.mk.injEq, or_false] at row
    rcases row with ⟨rfl, rfl, rfl⟩ | ⟨rfl, rfl, rfl⟩
    · exact ⟨converts_fldM32 hc hr, single_not_snan⟩
    · exact ⟨converts_fldM64 hc hr, double_not_snan⟩
  obtain ⟨h, notSnan⟩ := converts
  exact ⟨h.number hc h7, fun den => h.stops hc h7 (notSnan den) den, h.snan hc h7⟩

/-- Settles O24: the value of each operand is pushed; the FBLD of a digit above 9 pushes the undefined value. -/
theorem loadUncheckedPushes : Obligations.LoadUncheckedPushes := by
  intro p m s hc h7
  refine ⟨fun i n v row hr => ?rows, fun hr digit => ?bcd, fun j hj => (pushes_fldSti hc hj).completes hc h7⟩
  case rows =>
    simp only [List.mem_cons, List.not_mem_nil, Prod.mk.injEq, or_false, Option.some.injEq] at row
    rcases row with ⟨rfl, rfl, rfl⟩ | ⟨rfl, rfl, rfl⟩ | ⟨rfl, rfl, rfl⟩ | ⟨rfl, rfl, rfl⟩ | ⟨rfl, rfl, value⟩
    · exact (pushes_fldM80 hc hr).completes hc h7
    · exact (pushes_fildM16i hc hr).completes hc h7
    · exact (pushes_fildM32i hc hr).completes hc h7
    · exact (pushes_fildM64i hc hr).completes hc h7
    · have pushes := pushes_fbld (p := p) hc hr
      rw [← value] at pushes
      exact pushes.completes hc h7
  case bcd =>
    obtain ⟨t, run, ran, mem, pushed, c1, flagged⟩ := (pushes_fbld (p := p) hc hr).completes hc h7
    exact ⟨t, run, ran, mem, ⟨_, pushed⟩, c1, flagged⟩

theorem constantOf_self (v : Ext) (rc : RoundMode) : constantOf v v v rc = v := by cases rc <;> rfl

/-- The load constant instructions with their constants to nearest, down and up (R231 to R237). -/
def constantRows (p : List Prefix) : List (Instr × Ext × Ext × Ext) :=
  [(.fldz p, 0x00000000000000000000#80, 0x00000000000000000000#80, 0x00000000000000000000#80),
    (.fld1 p, 0x3FFF8000000000000000#80, 0x3FFF8000000000000000#80, 0x3FFF8000000000000000#80),
    (.fldpi p, 0x4000C90FDAA22168C235#80, 0x4000C90FDAA22168C234#80, 0x4000C90FDAA22168C235#80),
    (.fldl2t p, 0x4000D49A784BCD1B8AFE#80, 0x4000D49A784BCD1B8AFE#80, 0x4000D49A784BCD1B8AFF#80),
    (.fldl2e p, 0x3FFFB8AA3B295C17F0BC#80, 0x3FFFB8AA3B295C17F0BB#80, 0x3FFFB8AA3B295C17F0BC#80),
    (.fldlg2 p, 0x3FFD9A209A84FBCFF799#80, 0x3FFD9A209A84FBCFF798#80, 0x3FFD9A209A84FBCFF799#80),
    (.fldln2 p, 0x3FFEB17217F7D1CF79AC#80, 0x3FFEB17217F7D1CF79AB#80, 0x3FFEB17217F7D1CF79AC#80)]

theorem pushes_constant {near low high : Ext} (hc : s.pending = .clear) (row : (i, near, low, high) ∈ constantRows p) :
    Pushes i none (constantOf near low high (rcOf s.cw)) s := by
  simp only [constantRows, List.mem_cons, List.not_mem_nil, Prod.mk.injEq, or_false] at row
  have loads : ∀ {i k}, Plain i none s → i.memForm = none → exec i s = loadConstant i k s →
      Pushes i none (k (rcOf s.cw)) s := pushes_loadConstant hc
  rcases row with ⟨rfl, rfl, rfl, rfl⟩ | ⟨rfl, rfl, rfl, rfl⟩ | ⟨rfl, rfl, rfl, rfl⟩ | ⟨rfl, rfl, rfl, rfl⟩ |
    ⟨rfl, rfl, rfl, rfl⟩ | ⟨rfl, rfl, rfl, rfl⟩ | ⟨rfl, rfl, rfl, rfl⟩
  · rw [constantOf_self]
    exact loads (k := fun _ => zero false) ⟨rfl, rfl, rfl, rfl, rfl⟩ rfl rfl
  · rw [constantOf_self]
    exact loads (k := fun _ => one) ⟨rfl, rfl, rfl, rfl, rfl⟩ rfl rfl
  all_goals exact loads ⟨rfl, rfl, rfl, rfl, rfl⟩ rfl rfl

/-- Settles O25: each constant is pushed unchecked. -/
theorem loadConstantPushes : Obligations.LoadConstantPushes := by
  intro p s hc h7 i near low high row
  exact (pushes_constant hc row).completes hc h7

/-! ### Stack overflow (R183) -/

/-- Where the instruction needs an empty register for a second result, the overflow comes before its other checks. -/
theorem preChecks_overflow {x : Operand} {r : Responses} {go : State → Except Refusal State} (hx : x.empty = false)
    (full : u.pushOverflows = true) : preChecks [x] true r go u = .ok (u.respond .isOver State.overflowPush) := by
  simp [preChecks, hx, full]

theorem stOperand_start_empty (h0 : s.stTag 0#3 ≠ .empty) (i : Instr) :
    ((begun s i).stOperand 0#3).empty = false := stEmpty_eq_false (s := s) h0

theorem pushOverflows_start (h7 : s.stTag 7#3 ≠ .empty) (i : Instr) : (start s i).pushOverflows = true :=
  ((reported_start s i).pushOverflows).trans (pushOverflows_eq_true h7)

theorem overflow_fxtract (hc : s.pending = .clear) (h0 : s.stTag 0#3 ≠ .empty) (h7 : s.stTag 7#3 ≠ .empty) :
    exec (.fxtract p) s = finish (.fxtract p) (.ok ((start s (.fxtract p)).respond .isOver State.overflowPush)) := by
  change execFxtract p s = _
  exact (nonControl_clear hc rfl).trans
    (congrArg _ (preChecks_overflow (stOperand_start_empty h0 _) (pushOverflows_start h7 _)))

theorem trig_overflow {f : Trig} (hf : f.pushes = true) (h0 : s.stTag 0#3 ≠ .empty) (h7 : s.stTag 7#3 ≠ .empty)
    (i : Instr) : trig f (begun s i) = .ok ((start s i).respond .isOver State.overflowPush) := by
  rw [trig, hf]
  exact preChecks_overflow (stOperand_start_empty h0 i) (pushOverflows_start h7 i)

theorem overflow_fptan (hc : s.pending = .clear) (h0 : s.stTag 0#3 ≠ .empty) (h7 : s.stTag 7#3 ≠ .empty) :
    exec (.fptan p) s = finish (.fptan p) (.ok ((start s (.fptan p)).respond .isOver State.overflowPush)) := by
  change execFptan p s = _
  exact (nonControl_clear hc rfl).trans
    (congrArg _ (trig_overflow rfl h0 h7 _))

theorem overflow_fsincos (hc : s.pending = .clear) (h0 : s.stTag 0#3 ≠ .empty) (h7 : s.stTag 7#3 ≠ .empty) :
    exec (.fsincos p) s = finish (.fsincos p) (.ok ((start s (.fsincos p)).respond .isOver State.overflowPush)) := by
  change execFsincos p s = _
  exact (nonControl_clear hc rfl).trans
    (congrArg _ (trig_overflow rfl h0 h7 _))

/-- Settles O26: every row finds the overflow first, and answers it alike. -/
theorem pushOverflowsStack : Obligations.PushOverflowsStack := by
  intro p m j s hc h7 i n row hr hj h0
  have plainRun : ∃ q, Plain i q s ∧ exec i s = finish i (.ok ((start s i).respond .isOver State.overflowPush)) := by
    have push : ∀ {i q v}, Pushes i q v s → ∃ q, Plain i q s ∧
        exec i s = finish i (.ok ((start s i).respond .isOver State.overflowPush)) := fun h => ⟨_, h.1, h.overflow h7⟩
    have constant : ∀ {i} (n : Nat) {a b c}, (constantRows p)[n]? = some (i, a, b, c) → ∃ q, Plain i q s ∧
        exec i s = finish i (.ok ((start s i).respond .isOver State.overflowPush)) :=
      fun _ _ _ _ row => push (pushes_constant hc (List.mem_of_getElem? row))
    simp only [List.mem_cons, List.not_mem_nil, Prod.mk.injEq, or_false] at row
    rcases row with ⟨rfl, rfl⟩ | ⟨rfl, rfl⟩ | ⟨rfl, rfl⟩ | ⟨rfl, rfl⟩ | ⟨rfl, rfl⟩ | ⟨rfl, rfl⟩ | ⟨rfl, rfl⟩ |
      ⟨rfl, rfl⟩ | ⟨rfl, rfl⟩ | ⟨rfl, rfl⟩ | ⟨rfl, rfl⟩ | ⟨rfl, rfl⟩ | ⟨rfl, rfl⟩ | ⟨rfl, rfl⟩ | ⟨rfl, rfl⟩ |
      ⟨rfl, rfl⟩ | ⟨rfl, rfl⟩ | ⟨rfl, rfl⟩
    · exact ⟨_, (converts_fldM32 hc hr).1, (converts_fldM32 hc hr).overflow h7⟩
    · exact ⟨_, (converts_fldM64 hc hr).1, (converts_fldM64 hc hr).overflow h7⟩
    · exact push (pushes_fldM80 hc hr)
    · exact push (pushes_fildM16i hc hr)
    · exact push (pushes_fildM32i hc hr)
    · exact push (pushes_fildM64i hc hr)
    · exact push (pushes_fbld hc hr)
    · exact constant 0 rfl
    · exact constant 1 rfl
    · exact constant 2 rfl
    · exact constant 3 rfl
    · exact constant 4 rfl
    · exact constant 5 rfl
    · exact constant 6 rfl
    · exact push (pushes_fldSti hc (hj rfl))
    · exact ⟨none, ⟨rfl, rfl, rfl, rfl, rfl⟩, overflow_fxtract hc (h0 (by simp)) h7⟩
    · exact ⟨none, ⟨rfl, rfl, rfl, rfl, rfl⟩, overflow_fptan hc (h0 (by simp)) h7⟩
    · exact ⟨none, ⟨rfl, rfl, rfl, rfl, rfl⟩, overflow_fsincos hc (h0 (by simp)) h7⟩
  obtain ⟨q, plain, run⟩ := plainRun
  exact overflows plain hc run

end Sys2Proof.Loads


/-! PROOFS. Delivery (R158 to R163): what reporting a result leaves, case by case of its rounded exponent, and what the checks
before it have reported (R172). -/

namespace Sys2Proof.Delivery

open Sys2Proof Sys2Proof.Machine Sys2Proof.DataTransfer Sys2Proof.BasicArithmetic Sys2Proof.Running

variable {s t u : State} {cs : List Cond} {den : Bool} {f : Fmt} {p : Nat} {x : Exact}

/-! ### The up bit (R156) -/

/-- Only an inexact result is rounded up. -/
theorem up_of_exact {q : Int} {rc : RoundMode} (h : (roundGrid x q rc).inexact = false) : (roundGrid x q rc).up = false := by
  unfold roundGrid at h ⊢
  dsimp only at h ⊢
  split at h
  · rw [if_pos ‹_›]
  · split at h <;> cases h

theorem up_of_exact_roundP {rc : RoundMode} (h : (roundP x p rc).inexact = false) : (roundP x p rc).up = false :=
  up_of_exact h

/-! ### A denormal operand (R172) -/

/-- The state once a denormal operand, if there is one, is reported. -/
def afterDenormal (den : Bool) (u : State) : State := if den then u.signal .d else u

theorem reported_afterDenormal (h : Reported [] s u) (den : Bool) :
    Reported (resultConds den false) s (afterDenormal den u) := by
  cases den
  · exact h
  · exact h.signal .d

theorem denormalCheck_masked {ops : List Operand} (go : State → Except Refusal State)
    (h : (ops.any fun a => a.denormal) = true → u.masked .d = true) :
    denormalCheck ops go u = go (afterDenormal (ops.any fun a => a.denormal) u) := by
  unfold denormalCheck afterDenormal
  split
  · next den => rw [if_pos (h den)]
  · rfl

theorem denormalCheck_unmasked {ops : List Operand} (go : State → Except Refusal State)
    (den : (ops.any fun a => a.denormal) = true) (h : u.masked .d = false) :
    denormalCheck ops go u = .ok (u.signal .d) := by
  rw [denormalCheck, if_pos den, h, if_neg Bool.false_ne_true]

/-! ### The reports of a result (R158, R159) -/

theorem reported_reportInexact (h : Reported cs s u) (inexact up : Bool) :
    Reported (cs ++ if inexact then [.p] else []) s (u.reportInexact inexact up) := by
  cases inexact
  · rw [if_neg Bool.false_ne_true, List.append_nil]
    exact h.setC1 false
  · exact (h.signal .p).setC1 up

theorem reported_result (h : Reported (resultConds den false) s u) (inexact up : Bool) :
    Reported (resultConds den inexact) s (u.reportInexact inexact up) := by
  have reported := reported_reportInexact h inexact up
  rwa [resultConds, if_neg Bool.false_ne_true, List.append_nil] at reported

theorem c1_reportInexact {inexact up : Bool} (h : inexact = false → up = false) (u : State) :
    (u.reportInexact inexact up).sw.c1 = up := by
  cases inexact
  · exact (h rfl).symm
  · rfl

theorem reported_overflowMasked (h : Reported cs s u) (v : RealValue) :
    Reported (cs ++ [.o, .p]) s (u.overflowMasked v) := by
  have reported := ((h.signal .o).signal .p).setC1 v.isInfinite
  rwa [List.append_assoc] at reported

/-- A masked underflow (R161): a condition only where the result on the denormal grid is inexact. -/
def underflowMasked (u : State) (z : Rounded) : State :=
  (if z.inexact then u.signal .u else u).reportInexact z.inexact z.up

theorem reported_underflowMasked (h : Reported cs s u) (z : Rounded) :
    Reported (cs ++ if z.inexact then [.u, .p] else []) s (underflowMasked u z) := by
  unfold underflowMasked
  cases z.inexact
  · exact reported_reportInexact h false z.up
  · have reported := reported_reportInexact (h.signal .u) true z.up
    rwa [List.append_assoc] at reported

/-! ### Deliver, case by case (R163) -/

theorem deliver_inRange {toMem : Bool} (h : InRange f (roundP x p (rcOf u.cw))) :
    deliver f p toMem x u =
      (u.reportInexact (roundP x p (rcOf u.cw)).inexact (roundP x p (rcOf u.cw)).up,
        some (.finite x.neg (roundP x p (rcOf u.cw)).n (roundP x p (rcOf u.cw)).q)) := by
  obtain ⟨lo, hi⟩ := h
  simp only [deliver, if_neg (not_lt.mpr hi), if_neg (not_lt.mpr lo)]

theorem deliver_overflow_masked {toMem : Bool} (h : f.emax < (roundP x p (rcOf u.cw)).exponent)
    (masked : u.masked .o = true) :
    deliver f p toMem x u =
      (u.overflowMasked (overflowValue f (rcOf u.cw) x.neg), some (overflowValue f (rcOf u.cw) x.neg)) := by
  simp only [deliver, if_pos h, if_pos masked]

theorem deliver_overflow_mem (h : f.emax < (roundP x p (rcOf u.cw)).exponent) (unmasked : u.masked .o = false) :
    deliver f p true x u = (u.signal .o, none) := by
  simp only [deliver, if_pos h, unmasked, Bool.false_eq_true, if_false, if_true]

theorem deliver_overflow_reg (h : f.emax < (roundP x p (rcOf u.cw)).exponent) (unmasked : u.masked .o = false) :
    deliver f p false x u =
      ((u.signal .o).reportInexact (roundP x p (rcOf u.cw)).inexact (roundP x p (rcOf u.cw)).up,
        some (.finite x.neg (roundP x p (rcOf u.cw)).n ((roundP x p (rcOf u.cw)).q - 24576))) := by
  simp only [deliver, if_pos h, unmasked, Bool.false_eq_true, if_false]

/-- No format has its least exponent above its greatest. -/
theorem not_overflow_of_underflow (limits : f.emin ≤ f.emax) (h : (roundP x p (rcOf u.cw)).exponent < f.emin) :
    ¬ f.emax < (roundP x p (rcOf u.cw)).exponent := not_lt.mpr (h.le.trans limits)

theorem deliver_underflow_masked {toMem : Bool} (limits : f.emin ≤ f.emax)
    (h : (roundP x p (rcOf u.cw)).exponent < f.emin) (masked : u.masked .u = true) :
    deliver f p toMem x u =
      (underflowMasked u (roundGrid x (f.emin - (p - 1 : Nat)) (rcOf u.cw)),
        some (.finite x.neg (roundGrid x (f.emin - (p - 1 : Nat)) (rcOf u.cw)).n
          (roundGrid x (f.emin - (p - 1 : Nat)) (rcOf u.cw)).q)) := by
  simp only [deliver, if_neg (not_overflow_of_underflow limits h), if_pos h, if_pos masked]
  rfl

theorem deliver_underflow_mem (limits : f.emin ≤ f.emax) (h : (roundP x p (rcOf u.cw)).exponent < f.emin)
    (unmasked : u.masked .u = false) : deliver f p true x u = (u.signal .u, none) := by
  simp only [deliver, if_neg (not_overflow_of_underflow limits h), if_pos h, unmasked, Bool.false_eq_true, if_false,
    if_true]

theorem deliver_underflow_reg (limits : f.emin ≤ f.emax) (h : (roundP x p (rcOf u.cw)).exponent < f.emin)
    (unmasked : u.masked .u = false) :
    deliver f p false x u =
      ((u.signal .u).reportInexact (roundP x p (rcOf u.cw)).inexact (roundP x p (rcOf u.cw)).up,
        some (.finite x.neg (roundP x p (rcOf u.cw)).n ((roundP x p (rcOf u.cw)).q + 24576))) := by
  simp only [deliver, if_neg (not_overflow_of_underflow limits h), if_pos h, unmasked, Bool.false_eq_true, if_false]

/-! ### Stores to memory (R73) -/

/-- A numeric instruction, with its memory operand's pointer. -/
structure Numeric (i : Instr) (q : Option FarPtr) (s : State) : Prop where
  records : i.keepsPointers = false
  continues : i.replacesState = false
  eflags : i.isFcomi = false
  operand : i.memForm.map (s.operandPtr i.prefixes) = q

theorem Numeric.ran {i : Instr} {q : Option FarPtr} (h : Numeric i q s) (hc : s.pending = .clear)
    (run : exec i s = .next t) : Ran i q s t := by
  obtain ⟨u, runs, rfl⟩ := runs_of_ended hc (exec_ended i s t h.records h.continues run)
  exact ran_of_runs_operand h.eflags h.operand runs

theorem reported_memKept (h : Reported cs s u) (n : Nat) : MemKept s (u.advance n) := fun a => by
  rw [State.byte, State.advance_mem, h.mem, State.byte]

theorem memStored_store (h : u.mem = s.mem) (hm : memWf s.mem = true) {a n : Nat} (ha : a + n ≤ memEnd) (v : Nat)
    (mem : t.mem = (u.store a n v).mem) : MemStored a n v s t := by
  have byte : ∀ b, t.byte b = (s.store a n v).byte b := fun b => by
    rw [State.byte, mem, State.store_mem, h]; rfl
  exact ⟨fun k hk => (byte _).trans (State.byte_store_inside s a n v k hm ha hk),
    fun b hb => (byte b).trans (State.byte_store_outside s a n v b hb)⟩

theorem mem_storeDest (u : State) (d : MemDest) (v : Nat) : (u.storeDest d v).mem = (u.store d.addr d.bytes v).mem := by
  unfold State.storeDest; split <;> rfl

theorem sameFlags_storeDest (u : State) (d : MemDest) (v : Nat) : SameFlags u (u.storeDest d v) := by
  unfold State.storeDest; split <;> exact ⟨rfl, rfl, rfl, rfl⟩

@[simp] theorem c1_storeDest (u : State) (d : MemDest) (v : Nat) : (u.storeDest d v).sw.c1 = u.sw.c1 := by
  unfold State.storeDest; split <;> rfl

/-- The bytes stored and the pop of a store. -/
def StoredPop (d : MemDest) (v : Nat) (s t : State) : Prop :=
  MemStored d.addr d.bytes v s t ∧ if d.pop then Popped s t else StackKept s t

theorem reported_storeDest (h : Reported cs s u) (hm : memWf s.mem = true) {d : MemDest}
    (ha : d.addr + d.bytes ≤ memEnd) (v n : Nat) : StoredPop d v s ((u.storeDest d v).advance n) := by
  refine ⟨memStored_store h.mem hm ha v (mem_storeDest u d v), ?_⟩
  unfold State.storeDest
  split
  · have popped := h.popped n
    exact ⟨popped.top, popped.regs, popped.tag, popped.others⟩
  · exact ⟨h.stack.top, h.stack.regs, h.stack.tags⟩

end Sys2Proof.Delivery


/-! PROOFS. The stores of spec/41_data_transfer.md: ST(0) rounded to a real or integer format, copied unchecked, or moved
(R204 to R211, R212 to R219, R221, R223). -/

namespace Sys2Proof.Stores

open Sys2Proof Sys2Proof.Machine Sys2Proof.DataTransfer Sys2Proof.BasicArithmetic Sys2Proof.Running Sys2Proof.Delivery

variable {s t u w : State} {i : Instr} {p : List Prefix} {m : MemForm} {j : StIdx} {v : Ext} {c : Cond} {cs : List Cond}
  {q : Option FarPtr} {d : MemDest} {n : Nat} {pop : Bool} {f : Fmt} {enc : RealValue → Nat}

/-! ### The ends of a store -/

theorem Numeric.stored (h : Numeric i q s) (hc : s.pending = .clear) (hm : memWf s.mem = true)
    (ha : d.addr + d.bytes ≤ memEnd) (r : Reported cs s u) (run : exec i s = finish i (.ok (u.storeDest d n))) :
    Completes i s fun t => Ran i q s t ∧ StoredPop d n s t ∧ t.sw.c1 = u.sw.c1 ∧ Flagged cs s t := by
  have ran := h.ran hc (run.trans (finish_ok ..))
  exact ⟨_, run, ran, reported_storeDest r hm ha n _, c1_storeDest .., ((sameFlags_storeDest ..).advance _).flagged r.flagged⟩

theorem Numeric.stopped (h : Numeric i q s) (hc : s.pending = .clear) (r : Reported cs s u)
    (run : exec i s = finish i (.ok u)) :
    Completes i s fun t => Ran i q s t ∧ MemKept s t ∧ StackKept s t ∧ Flagged cs s t :=
  ⟨_, run, h.ran hc run, reported_memKept r _, r.stackKept _, ((SameFlags.refl u).advance _).flagged r.flagged⟩

/-- The response to a condition of a store: its masked response is a store, C1 0 (R172). -/
theorem Numeric.responds (h : Numeric i q s) (hc : s.pending = .clear) (hm : memWf s.mem = true)
    (ha : d.addr + d.bytes ≤ memEnd) (r : Reported [] s u) {g : State → State}
    (run : exec i s = finish i (.ok (u.respond c g))) (hg : s.masked c = true → ∃ w, Reported [c] s w ∧
      w.sw.c1 = false ∧ g (u.signal c) = w.storeDest d n) :
    Completes i s fun t => Ran i q s t ∧ Flagged [c] s t ∧
      if s.masked c then StoredPop d n s t ∧ t.sw.c1 = false else MemKept s t ∧ StackKept s t := by
  have masked := r.masked c
  by_cases hmask : s.masked c = true
  · obtain ⟨w, reported, c1, store⟩ := hg hmask
    rw [respond_masked _ (masked.trans hmask), store] at run
    obtain ⟨t, answer, ran, stored, c1t, flagged⟩ := Numeric.stored h hc hm ha reported run
    exact ⟨t, answer, ran, flagged, by rw [if_pos hmask]; exact ⟨stored, c1t.trans c1⟩⟩
  · rw [respond_unmasked _ (by rwa [masked])] at run
    obtain ⟨t, answer, ran, mem, stack, flagged⟩ := Numeric.stopped h hc (r.signal c) run
    exact ⟨t, answer, ran, flagged, by rw [if_neg hmask]; exact ⟨mem, stack⟩⟩

/-! ### Stores to a real format (R204, R206) -/

/-- The delivery of a finite number to memory, and its store. -/
def storeFinite (f : Fmt) (enc : RealValue → Nat) (d : MemDest) (y : Sys2Proof.Num) (u : State) : State :=
  match (deliver f f.prec true (exactNum y) u).2 with
  | none => (deliver f f.prec true (exactNum y) u).1
  | some z => (deliver f f.prec true (exactNum y) u).1.storeDest d (enc z)

theorem isFiniteNonzero_cases (h : isFiniteNonzero v = true) :
    isDenormal v = false ∧ classOf v = .normal ∨
      isDenormal v = true ∧ (classOf v = .denormal ∨ classOf v = .pseudoDenormal) := by
  unfold isFiniteNonzero isDenormal at h
  unfold isDenormal
  cases hc : classOf v <;> simp_all

/-- What a store does with ST(0), by its class. -/
theorem storeReal_empty (h0 : u.stTag 0#3 = .empty) :
    u.storeReal f enc d = u.respond .isUnder fun t => t.storeDest d (enc .indefinite) := by
  rw [State.storeReal, (stEmpty_iff u 0#3).2 h0]; rfl

theorem storeReal_full (h0 : u.stTag 0#3 ≠ .empty) :
    u.storeReal f enc d =
      match classOf (u.st 0#3) with
      | .unnormal | .pseudoInfinity | .pseudoNan => u.respond .ia fun t => (t.setC1 false).storeDest d (enc .indefinite)
      | .snan => u.respond .ia fun t =>
          (t.setC1 false).storeDest d (enc (.nan (signOf (u.st 0#3)) (sigOf (quiet (u.st 0#3)))))
      | .qnan => (u.setC1 false).storeDest d (enc (.nan (signOf (u.st 0#3)) (sigOf (u.st 0#3))))
      | .infinity => (u.setC1 false).storeDest d (enc (.infinite (signOf (u.st 0#3))))
      | .zero => (u.setC1 false).storeDest d (enc (.finite (signOf (u.st 0#3)) 0 0))
      | .denormal | .pseudoDenormal => u.respond .d (storeFinite f enc d (valOf (u.st 0#3)))
      | .normal => storeFinite f enc d (valOf (u.st 0#3)) u := by
  rw [State.storeReal, stEmpty_eq_false h0]
  simp only [Bool.false_eq_true, if_false]
  cases classOf (u.st 0#3) <;> rfl

theorem storeSingle_clear (hc : s.pending = .clear) (hm : i.memForm = some m) (hr : s.inRange m 4 = true) :
    storeSingle i m pop s = finish i (.ok ((start s i).storeReal fmtSingle (fun x => (singleOf x).toNat)
      { addr := s.addr m, bytes := 4, pop := pop })) := nonControlMem_clear hc hm hr

theorem storeDouble_clear (hc : s.pending = .clear) (hm : i.memForm = some m) (hr : s.inRange m 8 = true) :
    storeDouble i m pop s = finish i (.ok ((start s i).storeReal fmtDouble (fun x => (doubleOf x).toNat)
      { addr := s.addr m, bytes := 8, pop := pop })) := nonControlMem_clear hc hm hr

theorem realStore_row (hc : s.pending = .clear) (row : (i, n, f, enc, pop) ∈ realStores p m) (hr : s.inRange m n = true) :
    Numeric i (some (s.operandPtr p m)) s ∧ f.emin ≤ f.emax ∧
      exec i s = finish i (.ok ((start s i).storeReal f enc { addr := s.addr m, bytes := n, pop := pop })) := by
  simp only [realStores, List.mem_cons, List.not_mem_nil, Prod.mk.injEq, or_false] at row
  rcases row with ⟨rfl, rfl, rfl, rfl, rfl⟩ | ⟨rfl, rfl, rfl, rfl, rfl⟩ | ⟨rfl, rfl, rfl, rfl, rfl⟩ |
    ⟨rfl, rfl, rfl, rfl, rfl⟩
  · exact ⟨⟨rfl, rfl, rfl, rfl⟩, by decide, storeSingle_clear hc rfl hr⟩
  · exact ⟨⟨rfl, rfl, rfl, rfl⟩, by decide, storeSingle_clear hc rfl hr⟩
  · exact ⟨⟨rfl, rfl, rfl, rfl⟩, by decide, storeDouble_clear hc rfl hr⟩
  · exact ⟨⟨rfl, rfl, rfl, rfl⟩, by decide, storeDouble_clear hc rfl hr⟩

theorem inRange_le (h : s.inRange m n = true) : s.addr m + n ≤ memEnd := of_decide_eq_true h

/-- Settles O28: each class is stored exactly or answers its condition. -/
theorem storeRealOfSpecialValues : Obligations.StoreRealOfSpecialValues := by
  intro p m s hm hc i n f enc pop row hr
  obtain ⟨numeric, -, run⟩ := realStore_row hc row hr
  have ha := inRange_le hr
  have reported := reported_start s i
  refine ⟨fun c y class_y full class_v => ?exact, fun c y case => ?invalid⟩
  case exact =>
    have cleared : Reported [] s ((start s i).setC1 false) := reported.setC1 false
    rw [storeReal_full (by rwa [reported.stTag]), reported.st] at run
    have store : exec i s = finish i (.ok (((start s i).setC1 false).storeDest
        { addr := s.addr m, bytes := n, pop := pop } (enc y))) := by
      simp only [List.mem_cons, List.not_mem_nil, Prod.mk.injEq, or_false] at class_y
      rcases class_y with ⟨rfl, rfl⟩ | ⟨rfl, rfl⟩ | ⟨rfl, rfl⟩ <;> rw [class_v] at run <;> exact run
    obtain ⟨t, answer, ran, stored, c1, flagged⟩ := Numeric.stored numeric hc hm ha cleared store
    exact ⟨t, answer, ran, ⟨stored.1, stored.2, c1⟩, flagged⟩
  case invalid =>
    have responds : Completes i s fun t => Ran i (some (s.operandPtr p m)) s t ∧ Flagged [c] s t ∧
        if s.masked c then StoredPop { addr := s.addr m, bytes := n, pop := pop } (enc y) s t ∧ t.sw.c1 = false
        else MemKept s t ∧ StackKept s t := by
      rcases case with ⟨full, rfl, class_v, rfl⟩ | ⟨full, rfl, unsupported, rfl⟩ | ⟨empty, rfl, rfl⟩
      · rw [storeReal_full (by rwa [reported.stTag]), reported.st, class_v] at run
        exact Numeric.responds numeric hc hm ha reported run fun _ => ⟨_, (reported.signal .ia).setC1 false, rfl, rfl⟩
      · have class_v : classOf (s.st 0#3) = .unnormal ∨ classOf (s.st 0#3) = .pseudoInfinity ∨
            classOf (s.st 0#3) = .pseudoNan := by
          unfold isUnsupported at unsupported
          split at unsupported <;> simp_all
        rw [storeReal_full (by rwa [reported.stTag]), reported.st] at run
        rcases class_v with class_v | class_v | class_v <;> rw [class_v] at run <;>
          exact Numeric.responds numeric hc hm ha reported run fun _ => ⟨_, (reported.signal .ia).setC1 false, rfl, rfl⟩
      · rw [storeReal_empty (by rwa [reported.stTag])] at run
        exact Numeric.responds numeric hc hm ha reported run fun _ =>
          ⟨_, reported.signal .isUnder, c1_signal_isUnder _, rfl⟩
    obtain ⟨t, answer, ran, flagged, ends⟩ := responds
    refine ⟨t, answer, ran, flagged, ?_⟩
    by_cases masked : s.masked c = true
    · rw [if_pos masked] at ends ⊢
      obtain ⟨⟨stored, popped⟩, c1⟩ := ends
      exact ⟨stored, popped, c1⟩
    · rw [if_neg masked] at ends ⊢
      exact ends

/-! ### The number stored (R158 to R163, R167) -/

/-- A finite non-zero ST(0), its denormal masked, is delivered. -/
theorem storeReal_finite (full : u.stTag 0#3 ≠ .empty) (finite : isFiniteNonzero (u.st 0#3) = true)
    (masked : isDenormal (u.st 0#3) = true → u.masked .d = true) :
    u.storeReal f enc d =
      storeFinite f enc d (valOf (u.st 0#3)) (afterDenormal (isDenormal (u.st 0#3)) u) := by
  rw [storeReal_full full]
  rcases isFiniteNonzero_cases finite with ⟨den, cls⟩ | ⟨den, cls | cls⟩
  · rw [cls, den]; rfl
  · rw [cls, den]; exact respond_masked _ (masked den)
  · rw [cls, den]; exact respond_masked _ (masked den)

theorem storeReal_denormal_unmasked (full : u.stTag 0#3 ≠ .empty) (den : isDenormal (u.st 0#3) = true)
    (unmasked : u.masked .d = false) : u.storeReal f enc d = u.signal .d := by
  have cls : classOf (u.st 0#3) = .denormal ∨ classOf (u.st 0#3) = .pseudoDenormal := by
    simpa [isDenormal] using den
  have stop : ∀ g, u.respond .d g = u.signal .d := fun g => respond_unmasked g (by simp [unmasked])
  rw [storeReal_full full]
  rcases cls with cls | cls <;> rw [cls] <;> exact stop _

/-- Settles O27: the delivery to memory, case by case of the rounded exponent. -/
theorem storeRealRounds : Obligations.StoreRealRounds := by
  intro p m s hm hc full finite i n f enc pop row hr
  obtain ⟨numeric, limits, run⟩ := realStore_row hc row hr
  have ha := inRange_le hr
  have begins := reported_start s i
  have fullStart : (start s i).stTag 0#3 ≠ .empty := by rwa [begins.stTag]
  refine ⟨fun den unmasked => ?denormal, fun masked => ?delivered⟩
  case denormal =>
    rw [storeReal_denormal_unmasked fullStart den unmasked] at run
    exact Numeric.stopped numeric hc (begins.signal .d) run
  case delivered =>
    rw [storeReal_finite fullStart finite masked, begins.st] at run
    have reported := reported_afterDenormal begins (isDenormal (s.st 0#3))
    generalize afterDenormal (isDenormal (s.st 0#3)) (start s i) = u at run reported
    have rc : rcOf u.cw = rcOf s.cw := reported.rc
    have stores : ∀ {w cs y}, Reported cs s w → exec i s = finish i (.ok (w.storeDest
        { addr := s.addr m, bytes := n, pop := pop } (enc y))) → Completes i s fun t =>
          Ran i (some (s.operandPtr p m)) s t ∧ MemStored (s.addr m) n (enc y) s t ∧
            (if pop then Popped s t else StackKept s t) ∧ t.sw.c1 = w.sw.c1 ∧ Flagged cs s t := by
      intro w cs y reported run
      obtain ⟨t, answer, ran, ⟨stored, popped⟩, c1, flagged⟩ := Numeric.stored numeric hc hm ha reported run
      exact ⟨t, answer, ran, stored, popped, c1, flagged⟩
    unfold storeFinite at run
    refine ⟨fun inside => ?inside, fun above => ?above, fun below => ?below⟩
    case inside =>
      rw [deliver_inRange (by rwa [rc]), rc] at run
      have ends := stores (reported_result reported _ _) run
      rwa [c1_reportInexact up_of_exact_roundP] at ends
    case above =>
      have above : f.emax < (roundP (exactNum (valOf (s.st 0#3))) f.prec (rcOf u.cw)).exponent := by rwa [rc]
      split
      · next masked =>
        rw [deliver_overflow_masked above ((reported.masked .o).trans masked), rc] at run
        exact stores (reported_overflowMasked reported _) run
      · next unmasked =>
        rw [deliver_overflow_mem above ((reported.masked .o).trans (Bool.eq_false_of_not_eq_true unmasked))] at run
        exact Numeric.stopped numeric hc (reported.signal .o) run
    case below =>
      have below : (roundP (exactNum (valOf (s.st 0#3))) f.prec (rcOf u.cw)).exponent < f.emin := by rwa [rc]
      split
      · next masked =>
        rw [deliver_underflow_masked limits below ((reported.masked .u).trans masked), rc] at run
        have ends := stores (reported_underflowMasked reported _) run
        rwa [underflowMasked, c1_reportInexact up_of_exact] at ends
      · next unmasked =>
        rw [deliver_underflow_mem limits below ((reported.masked .u).trans (Bool.eq_false_of_not_eq_true unmasked))] at run
        exact Numeric.stopped numeric hc (reported.signal .u) run

/-! ### Stores to an integer format (R210, R211, R221) -/

/-- ST(0) rounded to an integer by RC, and its signed value. -/
def integerOf (s : State) : Rounded := roundInt (valOf (s.st 0#3)) (rcOf s.cw)

def signedOf (s : State) : Int := if signOf (s.st 0#3) then -(integerOf s).n else (integerOf s).n

section

variable {inRange : Int → Bool} {enc : Bool → Nat → Nat} {indefinite : Nat}

theorem storeRounded_empty (h0 : u.stTag 0#3 = .empty) :
    u.storeRounded inRange enc indefinite d = u.respond .isUnder fun t => t.storeDest d indefinite := by
  rw [State.storeRounded, (stEmpty_iff u 0#3).2 h0]; rfl

/-- What a store of a register that is not empty does: the number, the zero, or the invalid operation. -/
theorem storeRounded_full (h0 : u.stTag 0#3 ≠ .empty) :
    u.storeRounded inRange enc indefinite d =
      if isZero (u.st 0#3) = true then (u.setC1 false).storeDest d (enc (signOf (u.st 0#3)) 0)
      else if isFiniteNonzero (u.st 0#3) = true ∧ inRange (signedOf u) = true then
        (u.reportInexact (integerOf u).inexact (integerOf u).up).storeDest d (enc (signOf (u.st 0#3)) (integerOf u).n)
      else u.respond .ia fun t => (t.setC1 false).storeDest d indefinite := by
  rw [State.storeRounded, stEmpty_eq_false h0]
  simp only [Bool.false_eq_true, if_false]
  have signed : (if (valOf (u.st 0#3)).neg = true then -((roundInt (valOf (u.st 0#3)) (rcOf u.cw)).n : Int)
      else (roundInt (valOf (u.st 0#3)) (rcOf u.cw)).n) = signedOf u := rfl
  rw [signed]
  cases hc : classOf (u.st 0#3) <;> simp [isZero, isFiniteNonzero, isDenormal, hc] <;> rfl

theorem sigOf_zero (h : isZero v = true) : (sigOf v).toNat = 0 := by
  unfold isZero classOf at h
  dsimp only at h
  split at h
  · split at h
    · cases h
    · next integerBit =>
      split at h
      · next fraction =>
        have low : sigOf v = BitVec.zeroExtend 64 (v.extractLsb' 0 63) := by
          refine BitVec.eq_of_getLsbD_eq fun k hk => ?_
          rcases Nat.lt_or_ge k 63 with below | top
          · simp [sigOf, below, hk]
          · obtain rfl : k = 63 := by omega
            simpa [sigOf] using integerBit
        rw [low, fraction]; rfl
      · cases h
  · split at h
    · split at h
      · split at h
        · cases h
        · split at h <;> cases h
      · split at h <;> cases h
    · split at h <;> cases h

/-- A zero rounds to itself. -/
theorem integerOf_zero (h : isZero (s.st 0#3) = true) :
    (integerOf s).n = 0 ∧ (integerOf s).inexact = false ∧ (integerOf s).up = false := by
  have n : (valOf (s.st 0#3)).n = 0 := sigOf_zero h
  simp [integerOf, roundInt, roundGrid, exactNum, Mag.cut, n]

/-- An integer or decimal store: its destination, range, encoding and indefinite. -/
structure IntegerStore (i : Instr) (q : Option FarPtr) (d : MemDest) (inRange : Int → Bool) (enc : Bool → Nat → Nat)
    (indefinite : Nat) (s : State) : Prop where
  numeric : Numeric i q s
  inside : d.addr + d.bytes ≤ memEnd
  run : exec i s = finish i (.ok ((start s i).storeRounded inRange enc indefinite d))

theorem isZero_not_finiteNonzero (h : isZero v = true) : isFiniteNonzero v = false := by
  have cls : classOf v = .zero := by simpa [isZero] using h
  simp [isFiniteNonzero, isDenormal, cls]

theorem IntegerStore.completes (h : IntegerStore i q d inRange enc indefinite s) (hm : memWf s.mem = true)
    (hc : s.pending = .clear) (full : s.stTag 0#3 ≠ .empty)
    (number : isFiniteNonzero (s.st 0#3) = true ∨ isZero (s.st 0#3) = true) (hr : inRange (signedOf s) = true) :
    Completes i s fun t =>
      Ran i q s t ∧ StoredPop d (enc (signOf (s.st 0#3)) (integerOf s).n) s t ∧ t.sw.c1 = (integerOf s).up ∧
        Flagged (resultConds false (integerOf s).inexact) s t := by
  have begins := reported_start s i
  have run := h.run
  rw [storeRounded_full (by rwa [begins.stTag]), begins.st] at run
  rcases number with finite | zero
  · have notZero : isZero (s.st 0#3) ≠ true := fun zero => by simp [isZero_not_finiteNonzero zero] at finite
    rw [if_neg notZero, if_pos ⟨finite, hr⟩] at run
    obtain ⟨t, answer, ran, stored, c1, flagged⟩ :=
      Numeric.stored h.numeric hc hm h.inside (reported_reportInexact begins _ _) run
    exact ⟨t, answer, ran, stored, c1.trans (c1_reportInexact up_of_exact _), flagged⟩
  · obtain ⟨n, inexact, up⟩ := integerOf_zero zero
    rw [if_pos zero] at run
    have ends := Numeric.stored h.numeric hc hm h.inside (begins.setC1 false) run
    rw [n, inexact, up]
    exact ends

/-- ST(0) is no number in range, with the condition it answers. -/
def Unstorable (inRange : Int → Bool) (c : Cond) (s : State) : Prop :=
  (s.stTag 0#3 = .empty ∧ c = .isUnder) ∨
    (s.stTag 0#3 ≠ .empty ∧ c = .ia ∧ (isNumber (s.st 0#3) = false ∨ isInf (s.st 0#3) = true ∨
      isFiniteNonzero (s.st 0#3) = true ∧ inRange (signedOf s) = false))

theorem IntegerStore.invalid (h : IntegerStore i q d inRange enc indefinite s) (hm : memWf s.mem = true)
    (hc : s.pending = .clear) (bad : Unstorable inRange c s) :
    Completes i s fun t => Ran i q s t ∧ Flagged [c] s t ∧
      if s.masked c then StoredPop d indefinite s t ∧ t.sw.c1 = false else MemKept s t ∧ StackKept s t := by
  have begins := reported_start s i
  have run := h.run
  rcases bad with ⟨empty, rfl⟩ | ⟨full, rfl, outside⟩
  · rw [storeRounded_empty (by rwa [begins.stTag])] at run
    exact Numeric.responds h.numeric hc hm h.inside begins run fun _ =>
      ⟨_, begins.signal .isUnder, c1_signal_isUnder _, rfl⟩
  · have notZero : isZero (s.st 0#3) ≠ true := by
      intro zero
      have cls : classOf (s.st 0#3) = .zero := by simpa [isZero] using zero
      simp [isNumber, isUnsupported, isNan, isInf, isFiniteNonzero, isDenormal, cls] at outside
    have notStored : ¬ (isFiniteNonzero (s.st 0#3) = true ∧ inRange (signedOf s) = true) := by
      rintro ⟨finite, within⟩
      have number : isNumber (s.st 0#3) = true ∧ isInf (s.st 0#3) = false := by
        rcases isFiniteNonzero_cases finite with ⟨-, cls⟩ | ⟨-, cls | cls⟩ <;>
          simp [isNumber, isUnsupported, isNan, isInf, cls]
      simp [number, within] at outside
    have signed : signedOf (start s i) = signedOf s := rfl
    rw [storeRounded_full (by rwa [begins.stTag]), begins.st, if_neg notZero, signed, if_neg notStored] at run
    exact Numeric.responds h.numeric hc hm h.inside begins run fun _ => ⟨_, (begins.signal .ia).setC1 false, rfl, rfl⟩

end

/-! ### The ranges and encodings (R147 to R150, R169, R170) -/

theorem intInRange_iff (n : Nat) (z : Int) : intInRange n z = true ↔ -(2 ^ (n - 1)) ≤ z ∧ z < 2 ^ (n - 1) := by
  unfold intInRange
  rw [decide_eq_true_iff]
  push_cast
  omega

theorem twosComplement_eq (n : Nat) (neg : Bool) (k : Nat) :
    twosComplement n neg k = ((if neg then -(k : Int) else k) % 2 ^ n).toNat := by
  rw [twosComplement, BitVec.toNat_ofInt]
  push_cast
  rfl

theorem toNat_intIndefinite {n : Nat} (h : 0 < n) : (intIndefinite n).toNat = 2 ^ (n - 1) := by
  rw [intIndefinite, BitVec.toNat_ofNat]
  exact Nat.mod_eq_of_lt (Nat.pow_lt_pow_right one_lt_two (by omega))

theorem bcdInRange_iff (s : State) : bcdInRange (signedOf s) = true ↔ (integerOf s).n < 10 ^ 18 := by
  have magnitude : (signedOf s).natAbs = (integerOf s).n := by unfold signedOf; split <;> simp
  rw [bcdInRange, decide_eq_true_iff, magnitude]
  omega

theorem storeInt_clear (hc : s.pending = .clear) (hm : i.memForm = some m) (hr : s.inRange m n = true) :
    storeInt i m n pop s = finish i (.ok ((start s i).storeRounded (intInRange (8 * n)) (twosComplement (8 * n))
      (intIndefinite (8 * n)).toNat { addr := s.addr m, bytes := n, pop := pop })) := nonControlMem_clear hc hm hr

theorem integerStore_row (hc : s.pending = .clear) (row : (i, n, pop) ∈ integerStores p m) (hr : s.inRange m n = true) :
    0 < 8 * n ∧ IntegerStore i (some (s.operandPtr p m)) { addr := s.addr m, bytes := n, pop := pop }
      (intInRange (8 * n)) (twosComplement (8 * n)) (intIndefinite (8 * n)).toNat s := by
  simp only [integerStores, List.mem_cons, List.not_mem_nil, Prod.mk.injEq, or_false] at row
  rcases row with ⟨rfl, rfl, rfl⟩ | ⟨rfl, rfl, rfl⟩ | ⟨rfl, rfl, rfl⟩ | ⟨rfl, rfl, rfl⟩ | ⟨rfl, rfl, rfl⟩ <;>
    exact ⟨by decide, ⟨rfl, rfl, rfl, rfl⟩, inRange_le hr, storeInt_clear hc rfl hr⟩

theorem decimalStore (p : List Prefix) (hc : s.pending = .clear) (hr : s.inRange m 10 = true) :
    IntegerStore (.fbstp p m) (some (s.operandPtr p m)) { addr := s.addr m, bytes := 10, pop := true } bcdInRange
      (fun neg n => (packedDecimal neg n).toNat) (packedIndefinite (Config.freeBcd s.draws)).toNat s := by
  refine ⟨⟨rfl, rfl, rfl, rfl⟩, inRange_le hr, ?_⟩
  change execFbstp p m s = _
  exact nonControlMem_clear hc rfl hr

/-- Settles O29: the number, rounded by RC, is stored where it lies in the range. -/
theorem storeIntegerRounds : Obligations.StoreIntegerRounds := by
  intro p m s hm hc full number
  refine ⟨integerOf_zero, fun i n pop row hr lo hi => ?integer, fun hr digits => ?decimal⟩
  case integer =>
    obtain ⟨-, store⟩ := integerStore_row hc row hr
    obtain ⟨t, answer, ran, ⟨stored, popped⟩, c1, flagged⟩ :=
      store.completes hm hc full number ((intInRange_iff _ _).2 ⟨lo, hi⟩)
    rw [twosComplement_eq] at stored
    exact ⟨t, answer, ran, stored, popped, c1, flagged⟩
  case decimal =>
    obtain ⟨t, answer, ran, ⟨stored, popped⟩, c1, flagged⟩ :=
      (decimalStore p hc hr).completes hm hc full number ((bcdInRange_iff s).2 digits)
    exact ⟨t, answer, ran, stored, popped, c1, flagged⟩

/-- Settles O30: what is no number in range answers its condition; its masked response is the indefinite. -/
theorem storeIntegerInvalid : Obligations.StoreIntegerInvalid := by
  intro p m s hm hc
  refine ⟨fun i n pop c row hr bad => ?integer, fun c hr bad => ?decimal⟩
  case integer =>
    obtain ⟨width, store⟩ := integerStore_row hc row hr
    have unstorable : Unstorable (intInRange (8 * n)) c s := by
      refine bad.imp id fun ⟨full, ia, outside⟩ => ⟨full, ia, outside.imp id (Or.imp id fun ⟨finite, out⟩ => ⟨finite, ?_⟩)⟩
      exact Bool.eq_false_of_not_eq_true fun within => out ((intInRange_iff _ _).1 within)
    obtain ⟨t, answer, ran, flagged, ends⟩ := store.invalid hm hc unstorable
    rw [toNat_intIndefinite width] at ends
    refine ⟨t, answer, ran, flagged, ?_⟩
    by_cases masked : s.masked c = true
    · rw [if_pos masked] at ends ⊢
      obtain ⟨⟨stored, popped⟩, c1⟩ := ends
      exact ⟨stored, popped, c1⟩
    · rw [if_neg masked] at ends ⊢
      exact ends
  case decimal =>
    have unstorable : Unstorable bcdInRange c s := by
      refine bad.imp id fun ⟨full, ia, outside⟩ => ⟨full, ia, outside.imp id (Or.imp id fun ⟨finite, out⟩ => ⟨finite, ?_⟩)⟩
      exact Bool.eq_false_of_not_eq_true fun within => absurd ((bcdInRange_iff s).1 within) (not_lt.mpr out)
    obtain ⟨t, answer, ran, flagged, ends⟩ := (decimalStore p hc hr).invalid hm hc unstorable
    refine ⟨t, answer, ran, flagged, ?_⟩
    by_cases masked : s.masked c = true
    · rw [if_pos masked] at ends ⊢
      obtain ⟨⟨stored, popped⟩, c1⟩ := ends
      exact ⟨⟨_, stored⟩, popped, c1⟩
    · rw [if_neg masked] at ends ⊢
      exact ends

/-! ### Copies (R205, R207, R208) -/

theorem Plain.numeric (h : Plain i q s) : Numeric i q s := ⟨h.records, h.continues, h.eflags, h.operand⟩

/-- An instruction that ends in a write to a register, without an exception. -/
theorem Plain.delivers {dest : Dest} (h : Plain i q s) (hc : s.pending = .clear) (r : Reported cs s u)
    (run : exec i s = finish i (.ok (u.writeDest dest v))) :
    Completes i s fun t =>
      Ran i q s t ∧ MemKept s t ∧ Delivered dest v s t ∧ t.sw.c1 = u.sw.c1 ∧ Flagged cs s t := by
  obtain ⟨ran, mem⟩ := h.frame hc run
  exact ⟨_, run, ran, mem, r.delivered dest v _, c1_writeDest .., ((sameFlags_writeDest ..).advance _).flagged r.flagged⟩

/-- FST ST(i) and FSTP ST(i), by their pop. -/
def copies (p : List Prefix) (j : StIdx) : Bool → Instr
  | false => .fstSti p j
  | true => .fstpSti p j

theorem plain_copies (p : List Prefix) (j : StIdx) (pop : Bool) (s : State) : Plain (copies p j pop) none s := by
  cases pop <;> exact ⟨rfl, rfl, rfl, rfl, rfl⟩

theorem exec_copies (p : List Prefix) (j : StIdx) (pop : Bool) (hc : s.pending = .clear) :
    exec (copies p j pop) s = finish (copies p j pop) (.ok ((start s (copies p j pop)).copySt j pop)) := by
  cases pop with
  | false => change execFstSti p j s = _; exact nonControl_clear hc rfl
  | true => change execFstpSti p j s = _; exact nonControl_clear hc rfl

theorem copySt_eq (u : State) (j : StIdx) (pop : Bool) :
    u.copySt j pop =
      if u.stTag 0#3 = .empty then u.respond .isUnder fun t => t.writeDest { i := j, pop := pop } realIndefinite
      else (u.setC1 false).writeDest { i := j, pop := pop } (u.st 0#3) := by
  by_cases empty : u.stTag 0#3 = .empty
  · rw [State.copySt, (stEmpty_iff u 0#3).2 empty, if_pos empty]; rfl
  · rw [State.copySt, stEmpty_eq_false empty, if_neg empty]; rfl

theorem copies_full (p : List Prefix) (j : StIdx) (pop : Bool) (hc : s.pending = .clear) (full : s.stTag 0#3 ≠ .empty) :
    Completes (copies p j pop) s fun t => Ran (copies p j pop) none s t ∧ MemKept s t ∧
      Delivered { i := j, pop := pop } (s.st 0#3) s t ∧ t.sw.c1 = false ∧ Flagged [] s t := by
  have begins := reported_start s (copies p j pop)
  have run := exec_copies p j pop hc
  rw [copySt_eq, if_neg (by rwa [begins.stTag]), begins.st] at run
  exact Plain.delivers (plain_copies p j pop s) hc (begins.setC1 false) run

theorem copies_empty (p : List Prefix) (j : StIdx) (pop : Bool) (hc : s.pending = .clear) (empty : s.stTag 0#3 = .empty) :
    Completes (copies p j pop) s fun t => Ran (copies p j pop) none s t ∧ MemKept s t ∧ t.sw.c1 = false ∧
      Flagged [.isUnder] s t ∧
        if s.masked .isUnder then Delivered { i := j, pop := pop } realIndefinite s t else StackKept s t := by
  have begins := reported_start s (copies p j pop)
  have run := exec_copies p j pop hc
  rw [copySt_eq, if_pos (by rwa [begins.stTag])] at run
  exact (plain_copies p j pop s).underflows hc begins run (fun _ => sameFlags_writeDest ..) (fun _ => c1_writeDest ..)
    fun r => r.delivered _ _ _

/-- Settles O31: the register copies, and the ten bytes of FSTP m80real. -/
theorem storeUncheckedCopies : Obligations.StoreUncheckedCopies := by
  intro p s hc
  refine ⟨fun j full => ⟨copies_full p j false hc full, copies_full p j true hc full⟩, fun m hm hr => ?_⟩
  have numeric : Numeric (.fstpM80 p m) (some (s.operandPtr p m)) s := ⟨rfl, rfl, rfl, rfl⟩
  have begins := reported_start s (.fstpM80 p m)
  have run : exec (.fstpM80 p m) s = finish (.fstpM80 p m) (.ok (
      if (start s (.fstpM80 p m)).stEmpty 0#3 then (start s (.fstpM80 p m)).respond .isUnder fun t =>
        t.storeDest { addr := s.addr m, bytes := 10, pop := true } realIndefinite.toNat
      else ((start s (.fstpM80 p m)).setC1 false).storeDest { addr := s.addr m, bytes := 10, pop := true }
        (s.st 0#3).toNat)) := by
    change execFstpM80 p m s = _
    exact nonControlMem_clear hc rfl hr
  refine ⟨fun full => ?full, fun empty => ?empty⟩
  case full =>
    rw [begins.stEmpty, stEmpty_eq_false full, if_neg Bool.false_ne_true] at run
    obtain ⟨t, answer, ran, ⟨stored, popped⟩, c1, flagged⟩ :=
      Numeric.stored numeric hc hm (inRange_le hr) (begins.setC1 false) run
    exact ⟨t, answer, ran, stored, popped, c1, flagged⟩
  case empty =>
    rw [begins.stEmpty, (stEmpty_iff s 0#3).2 empty, if_pos rfl] at run
    have signalled : Reported [.isUnder] s _ := begins.signal .isUnder
    by_cases masked : s.masked .isUnder = true
    · rw [respond_masked _ ((begins.masked _).trans masked)] at run
      obtain ⟨t, answer, ran, ⟨stored, popped⟩, c1, flagged⟩ :=
        Numeric.stored numeric hc hm (inRange_le hr) signalled run
      exact ⟨t, answer, ran, c1.trans (c1_signal_isUnder _), flagged, by rw [if_pos masked]; exact ⟨stored, popped⟩⟩
    · rw [respond_unmasked _ (by rwa [begins.masked])] at run
      have ends := Numeric.stopped numeric hc signalled run
      obtain ⟨t, answer, ran, mem, stack, flagged⟩ := ends
      refine ⟨t, answer, ran, ?_, flagged, by rw [if_neg masked]; exact ⟨mem, stack⟩⟩
      rw [run, finish_ok] at answer
      cases answer
      exact c1_signal_isUnder _

/-! ### Conditional moves (R212 to R219, R223) -/

/-- An FCMOVcc with its condition. -/
structure Moves (ins : Instr) (cond : Eflags → Bool) (j : StIdx) (s : State) : Prop where
  plain : Plain ins none s
  noOperand : ins.memForm = none
  meaning : exec ins s = cmov ins cond j s

theorem conditionalMove_row {c : Bool} (row : (i, c) ∈ conditionalMoves p j s.eflags) :
    ∃ cond, Moves i cond j s ∧ cond s.eflags = c := by
  simp only [conditionalMoves, List.mem_cons, List.not_mem_nil, Prod.mk.injEq, or_false] at row
  have plain : ∀ {i : Instr}, i.keepsPointers = false → i.replacesState = false → i.isFcomi = false →
      i.stored s = none → i.memForm = none → Plain i none s := fun hk hr he hs hm => ⟨hk, hr, he, hs, by rw [hm]; rfl⟩
  rcases row with ⟨rfl, rfl⟩ | ⟨rfl, rfl⟩ | ⟨rfl, rfl⟩ | ⟨rfl, rfl⟩ | ⟨rfl, rfl⟩ | ⟨rfl, rfl⟩ | ⟨rfl, rfl⟩ | ⟨rfl, rfl⟩
  · exact ⟨fun f => f.cf, ⟨plain rfl rfl rfl rfl rfl, rfl, rfl⟩, rfl⟩
  · exact ⟨fun f => !f.cf, ⟨plain rfl rfl rfl rfl rfl, rfl, rfl⟩, rfl⟩
  · exact ⟨fun f => f.zf, ⟨plain rfl rfl rfl rfl rfl, rfl, rfl⟩, rfl⟩
  · exact ⟨fun f => !f.zf, ⟨plain rfl rfl rfl rfl rfl, rfl, rfl⟩, rfl⟩
  · exact ⟨fun f => f.cf || f.zf, ⟨plain rfl rfl rfl rfl rfl, rfl, rfl⟩, rfl⟩
  · exact ⟨fun f => !f.cf && !f.zf, ⟨plain rfl rfl rfl rfl rfl, rfl, rfl⟩, (Bool.not_or ..).symm⟩
  · exact ⟨fun f => f.pf, ⟨plain rfl rfl rfl rfl rfl, rfl, rfl⟩, rfl⟩
  · exact ⟨fun f => !f.pf, ⟨plain rfl rfl rfl rfl rfl, rfl, rfl⟩, rfl⟩

theorem Moves.run {cond : Eflags → Bool} (h : Moves i cond j s) (present : s.params.hasFcmov = true)
    (hc : s.pending = .clear) :
    exec i s = finish i (.ok (
      if (start s i).stEmpty j then
        (start s i).respond .isUnder fun t => if cond t.eflags then t.setSt 0#3 realIndefinite else t
      else if cond s.eflags then ((start s i).setC1 false).setSt 0#3 (s.st j) else (start s i).setC1 false)) := by
  rw [h.meaning, cmov, present, if_pos rfl]
  exact nonControl_clear hc h.noOperand

/-- Settles O33: the condition decides between the copy and nothing. -/
theorem conditionalMoveCopies : Obligations.ConditionalMoveCopies := by
  intro p j s present hc full i c row
  obtain ⟨cond, moves, rfl⟩ := conditionalMove_row row
  have begins := reported_start s i
  have cleared : Reported [] s ((start s i).setC1 false) := begins.setC1 false
  have run := moves.run present hc
  rw [begins.stEmpty, stEmpty_eq_false full, if_neg Bool.false_ne_true] at run
  by_cases holds : cond s.eflags = true
  · rw [if_pos holds] at run
    obtain ⟨ran, mem⟩ := moves.plain.frame hc run
    exact ⟨_, run, ran, mem, by rw [if_pos holds]; exact cleared.wrote 0#3 _ _, rfl,
      ((sameFlags_setSt ..).advance _).flagged cleared.flagged⟩
  · rw [if_neg holds] at run
    obtain ⟨ran, mem⟩ := moves.plain.frame hc run
    exact ⟨_, run, ran, mem, by rw [if_neg holds]; exact cleared.stackKept _, rfl,
      ((SameFlags.refl _).advance _).flagged cleared.flagged⟩

end Sys2Proof.Stores


/-! PROOFS. The pre-operation checks (R172) and the basic arithmetic of spec/43_basic_arithmetic.md in all its forms (R240 to
R259): what each check answers, and the delivery of the result. -/

namespace Sys2Proof.Arithmetic

open Sys2Proof Sys2Proof.Machine Sys2Proof.DataTransfer Sys2Proof.BasicArithmetic Sys2Proof.Running Sys2Proof.Delivery

variable {s t u : State} {i : Instr} {v : Ext} {c : Cond} {cs : List Cond} {q : Option FarPtr} {ops : List Operand}
  {d : Option Dest} {go : State → Except Refusal State}

/-! ### NaNs (R142, R164, R165) -/

theorem expOf_of_nan (h : isNan v = true) : expOf v = 0x7FFF#15 := by
  unfold isNan classOf at h
  dsimp only at h
  by_cases zero : expOf v = 0#15
  · rw [if_pos zero] at h
    split at h
    · cases h
    · split at h <;> cases h
  · by_cases top : expOf v = 0x7FFF#15
    · exact top
    · rw [if_neg zero, if_neg top] at h
      split at h <;> cases h

theorem withSign_signOf (v : Ext) : withSign (signOf v) v = v := by
  refine BitVec.eq_of_getLsbD_eq fun k _ => ?_
  rw [getLsbD_withSign]
  split
  · next h => rw [h]; rfl
  · rfl

/-- A value is its three fields. -/
theorem ext_of_fields {a b : Ext} (sign : signOf a = signOf b) (exp : expOf a = expOf b) (sig : sigOf a = sigOf b) :
    a = b := by
  rw [← withSign_signOf a, ← withSign_signOf b, withSign, withSign, sign, exp, sig]

theorem isNan_iff : isNan v = true ↔ classOf v = .snan ∨ classOf v = .qnan := by simp [isNan]

/-- The NaN result does not depend on the order of the operands. -/
theorem nanResult_comm (a b : Ext) : nanResult a b = nanResult b a := by
  unfold nanResult
  by_cases both : isNan a = true ∧ isNan b = true
  · obtain ⟨na, nb⟩ := both
    have mixed : ∀ {x y : Ext}, classOf x = .qnan → classOf y = .snan → (classOf y == .qnan) = false := by
      intro x y _ h; rw [h]; rfl
    rcases lt_trichotomy (sigOf a).toNat (sigOf b).toNat with lt | eq | gt
    · rcases isNan_iff.1 na with ca | ca <;> rcases isNan_iff.1 nb with cb | cb <;>
        simp [na, nb, ca, cb, lt, lt.not_gt]
    · have same : signOf a = signOf b → a = b := fun sign =>
        ext_of_fields sign ((expOf_of_nan na).trans (expOf_of_nan nb).symm) (BitVec.eq_of_toNat_eq eq)
      have tie : (if signOf a = true then quiet b else quiet a) = if signOf b = true then quiet a else quiet b := by
        cases ha : signOf a <;> cases hb : signOf b
        · rw [same (ha.trans hb.symm)]
        · rfl
        · rfl
        · rw [same (ha.trans hb.symm)]
      rcases isNan_iff.1 na with ca | ca <;> rcases isNan_iff.1 nb with cb | cb <;>
        simp [na, nb, ca, cb, eq, tie]
    · rcases isNan_iff.1 na with ca | ca <;> rcases isNan_iff.1 nb with cb | cb <;>
        simp [na, nb, ca, cb, gt, gt.not_gt]
  · cases na : isNan a <;> cases nb : isNan b <;> simp_all

/-! ### The checks, one by one (R172) -/

/-- The registers an instruction reads are full, and the one it pushes to is empty. -/
structure Ready (ops : List Operand) (d : Option Dest) (s : State) : Prop where
  full : (ops.any fun a => a.empty) = false
  room : d = none → s.stTag 7#3 = .empty

/-- What a destination receives; without one, ST(0) and the register pushed (R241). -/
def writeTo (d : Option Dest) (v : Ext) (u : State) : State :=
  match d with
  | some d => u.writeDest d v
  | none => u.writePush v v

/-- The responses of an instruction with one result, or with a second that is pushed. -/
def responsesOf : Option Dest → Responses
  | some d => toDest d
  | none => toPush

theorem underflow_responsesOf (d : Option Dest) : (responsesOf d).underflow = writeTo d realIndefinite := by
  cases d <;> rfl

theorem invalid_responsesOf (d : Option Dest) : (responsesOf d).invalid = writeTo d realIndefinite := by cases d <;> rfl

theorem nan_responsesOf (d : Option Dest) (v : Ext) : (responsesOf d).nan v = writeTo d v := by cases d <;> rfl

theorem sameFlags_writeTo (u : State) (d : Option Dest) (v : Ext) : SameFlags u (writeTo d v u) := by
  cases d with
  | some d => exact sameFlags_writeDest u d v
  | none => exact sameFlags_writePush u v v

theorem c1_writeTo (u : State) (d : Option Dest) (v : Ext) : (writeTo d v u).sw.c1 = u.sw.c1 := by
  cases d with
  | some d => exact c1_writeDest u d v
  | none => rfl

theorem deliveredTo (h : Reported cs s u) (d : Option Dest) (v : Ext) (n : Nat) :
    DeliveredTo d v s ((writeTo d v u).advance n) := by
  cases d with
  | some d => exact h.delivered d v n
  | none => exact h.wrotePushed v v n

/-- An instruction that begins with the checks of R172 on `ops`. -/
structure Checked (i : Instr) (q : Option FarPtr) (ops : List Operand) (d : Option Dest)
    (go : State → Except Refusal State) (s : State) : Prop where
  plain : Plain i q s
  run : exec i s = finish i (preChecks ops d.isNone (responsesOf d) go (start s i))

theorem Ready.passes (h : Ready ops d s) (i : Instr) : (d.isNone && (start s i).pushOverflows) = false := by
  cases d with
  | some d => rfl
  | none => exact ((reported_start s i).pushOverflows).trans (pushOverflows_eq_false (h.room rfl))

theorem Checked.underflow (h : Checked i q ops d go s) (hc : s.pending = .clear)
    (empty : (ops.any fun a => a.empty) = true) :
    Completes i s fun t => Ran i q s t ∧ MemKept s t ∧ t.sw.c1 = false ∧ Flagged [.isUnder] s t ∧
      if s.masked .isUnder then DeliveredTo d realIndefinite s t else StackKept s t := by
  have run := h.run
  rw [preChecks, if_pos empty, underflow_responsesOf] at run
  exact h.plain.underflows hc (reported_start s i) run (fun u => sameFlags_writeTo u d _) (fun u => c1_writeTo u d _)
    fun r => deliveredTo r d _ _

/-- A response of the checks that sets C1 to 0 and writes the destination. -/
theorem responds_writeTo (plain : Plain i q s) (hc : s.pending = .clear) (r : Reported [] s u)
    (run : exec i s = finish i (.ok (u.respond c fun t => writeTo d v (t.setC1 false)))) :
    Responds i q s c fun t => DeliveredTo d v s t ∧ t.sw.c1 = false :=
  plain.responds hc r run (fun u => (sameFlags_writeTo (u.setC1 false) d v).flags |> fun flags =>
    ⟨flags, (sameFlags_writeTo (u.setC1 false) d v).es, (sameFlags_writeTo (u.setC1 false) d v).busy,
      (sameFlags_writeTo (u.setC1 false) d v).ferr⟩)
    fun r => ⟨deliveredTo (r.setC1 false) d v _, c1_writeTo ..⟩

/-- The end of an instruction that signals no further condition and writes its destination. -/
theorem completes_writeTo (plain : Plain i q s) (hc : s.pending = .clear) (r : Reported cs s u)
    (run : exec i s = finish i (.ok (writeTo d v u))) :
    Completes i s fun t =>
      Ran i q s t ∧ MemKept s t ∧ DeliveredTo d v s t ∧ t.sw.c1 = u.sw.c1 ∧ Flagged cs s t := by
  obtain ⟨ran, mem⟩ := plain.frame hc run
  exact ⟨_, run, ran, mem, deliveredTo r d v _, c1_writeTo .., ((sameFlags_writeTo ..).advance _).flagged r.flagged⟩

/-- The end of an instruction that stops, or writes no register. -/
theorem completes_kept (plain : Plain i q s) (hc : s.pending = .clear) (r : Reported cs s u)
    (run : exec i s = finish i (.ok u)) :
    Completes i s fun t => Ran i q s t ∧ MemKept s t ∧ StackKept s t ∧ t.sw = u.sw ∧ Flagged cs s t := by
  obtain ⟨ran, mem⟩ := plain.frame hc run
  exact ⟨_, run, ran, mem, r.stackKept _, rfl, ((SameFlags.refl _).advance _).flagged r.flagged⟩

theorem Checked.unsupported (h : Checked i q ops d go s) (hc : s.pending = .clear) (ready : Ready ops d s)
    (hu : (ops.any fun a => isUnsupported a.val) = true) :
    Responds i q s .ia fun t => DeliveredTo d realIndefinite s t ∧ t.sw.c1 = false := by
  have run := h.run
  simp only [preChecks, ready.full, ready.passes, Bool.false_eq_true, if_false, if_pos hu, invalid_responsesOf] at run
  exact responds_writeTo h.plain hc (reported_start s i) run

theorem Checked.snan (h : Checked i q ops d go s) (hc : s.pending = .clear) (ready : Ready ops d s)
    (hu : (ops.any fun a => isUnsupported a.val) = false) (hs : (ops.any fun a => classOf a.val == .snan) = true) :
    Responds i q s .ia fun t => DeliveredTo d (nanOf ops) s t ∧ t.sw.c1 = false := by
  have run := h.run
  simp only [preChecks, ready.full, ready.passes, hu, Bool.false_eq_true, if_false, if_pos hs, nan_responsesOf] at run
  exact responds_writeTo h.plain hc (reported_start s i) run

theorem Checked.qnan (h : Checked i q ops d go s) (hc : s.pending = .clear) (ready : Ready ops d s)
    (hu : (ops.any fun a => isUnsupported a.val) = false) (hs : (ops.any fun a => classOf a.val == .snan) = false)
    (hq : (ops.any fun a => classOf a.val == .qnan) = true) :
    Completes i s fun t =>
      Ran i q s t ∧ MemKept s t ∧ DeliveredTo d (nanOf ops) s t ∧ t.sw.c1 = false ∧ Flagged [] s t := by
  have run := h.run
  simp only [preChecks, ready.full, ready.passes, hu, hs, Bool.false_eq_true, if_false, if_pos hq, nan_responsesOf] at run
  exact completes_writeTo h.plain hc ((reported_start s i).setC1 false) run

theorem any_of_forall {p : Operand → Bool} (h : ∀ a ∈ ops, p a = false) : ops.any p = false := by
  simpa [List.any_eq_false] using h

theorem isNumber_iff : isNumber v = true ↔ isUnsupported v = false ∧ isNan v = false := by simp [isNumber]

/-- Numbers pass the checks. -/
theorem Checked.passes (h : Checked i q ops d go s) (ready : Ready ops d s)
    (numbers : ∀ a ∈ ops, isNumber a.val = true) : exec i s = finish i (go (start s i)) := by
  have hu : (ops.any fun a => isUnsupported a.val) = false :=
    any_of_forall fun a ha => (isNumber_iff.1 (numbers a ha)).1
  have nan : ∀ a ∈ ops, isNan a.val = false := fun a ha => (isNumber_iff.1 (numbers a ha)).2
  have hs : (ops.any fun a => classOf a.val == .snan) = false :=
    any_of_forall fun a ha => by have := nan a ha; simp only [isNan, Bool.or_eq_false_iff] at this; exact this.1
  have hq : (ops.any fun a => classOf a.val == .qnan) = false :=
    any_of_forall fun a ha => by have := nan a ha; simp only [isNan, Bool.or_eq_false_iff] at this; exact this.2
  rw [h.run]
  simp only [preChecks, ready.full, ready.passes, hu, hs, hq, Bool.false_eq_true, if_false]

/-! ### The forms of R240 -/

/-- The operation of a kind, and whether it takes its operands in reverse. -/
def opOf : ArithKind → BinOp
  | .add => .add
  | .mul => .mul
  | .sub | .subr => .sub
  | .div | .divr => .div

def reverses : ArithKind → Bool
  | .subr | .divr => true
  | .add | .mul | .sub | .div => false

theorem any_swap (f : Operand → Bool) (a b : Operand) : [b, a].any f = [a, b].any f := by
  simp [Bool.or_comm]

theorem preChecks_swap (a b : Operand) (pushes : Bool) (r : Responses) (go : State → Except Refusal State) (u : State) :
    preChecks [b, a] pushes r go u = preChecks [a, b] pushes r go u := by
  simp only [preChecks, nanOf, any_swap _ a b, nanResult_comm b.val a.val]

theorem denormalCheck_swap (a b : Operand) (go : State → Except Refusal State) (u : State) :
    denormalCheck [b, a] go u = denormalCheck [a, b] go u := by
  simp only [denormalCheck, any_swap _ a b]

theorem respondResult_swap (a b : Operand) (x : OpResult) (p : Option Nat) (d : Dest) (u : State) :
    respondResult [b, a] x p d u = respondResult [a, b] x p d u := by
  cases x <;> simp only [respondResult, denormalCheck_swap]

/-- The result of a form, delivered. -/
def deliverForm (k : ArithKind) (a b : Operand) (p : Option Nat) (d : Dest) (t : State) : Except Refusal State :=
  respondResult [a, b] (k.result (rcOf t.cw) a.val b.val) p d t

theorem arithDir_eq (k : ArithKind) (a b : Operand) (p : Option Nat) (d : Dest) (u : State) :
    arithDir (opOf k) (reverses k) a b p d u =
      preChecks [a, b] false (responsesOf (some d)) (deliverForm k a b p d) u.freeCodes := by
  have swapped (op : BinOp) : arith op b a p d u = preChecks [a, b] false (responsesOf (some d))
      (fun t => respondResult [a, b] (binOp op (rcOf t.cw) b.val a.val) p d t) u.freeCodes := by
    simp only [arith, preChecks_swap a b, respondResult_swap a b, responsesOf]
  cases k with
  | add | mul | sub | div => exact if_neg Bool.false_ne_true
  | subr | divr => exact (if_pos rfl).trans (swapped _)

variable {k : ArithKind} {a b : Operand} {p : Option Nat} {dest : Dest}

/-- Every form begins with the checks of its two operands. -/
theorem checked_of_form (h : ArithForm k s i q a b p dest) (hc : s.pending = .clear) :
    Checked i q [a, b] (some dest) (deliverForm k a b p dest) s := by
  cases h with
  | single px m hr =>
    have meaning : exec (k.single px m) s = arithSingle (k.single px m) (opOf k) (reverses k) m s := by cases k <;> rfl
    refine ⟨by cases k <;> exact ⟨rfl, rfl, rfl, rfl, rfl⟩, meaning.trans ?_⟩
    exact (nonControlMem_clear hc (by cases k <;> rfl) hr).trans (congrArg _ (arithDir_eq ..))
  | double px m hr =>
    have meaning : exec (k.double px m) s = arithDouble (k.double px m) (opOf k) (reverses k) m s := by cases k <;> rfl
    refine ⟨by cases k <;> exact ⟨rfl, rfl, rfl, rfl, rfl⟩, meaning.trans ?_⟩
    exact (nonControlMem_clear hc (by cases k <;> rfl) hr).trans (congrArg _ (arithDir_eq ..))
  | int16 px m hr =>
    have meaning : exec (k.int16 px m) s = arithInt (k.int16 px m) (opOf k) (reverses k) 2 m s := by cases k <;> rfl
    refine ⟨by cases k <;> exact ⟨rfl, rfl, rfl, rfl, rfl⟩, meaning.trans ?_⟩
    exact (nonControlMem_clear hc (by cases k <;> rfl) hr).trans (congrArg _ (arithDir_eq ..))
  | int32 px m hr =>
    have meaning : exec (k.int32 px m) s = arithInt (k.int32 px m) (opOf k) (reverses k) 4 m s := by cases k <;> rfl
    refine ⟨by cases k <;> exact ⟨rfl, rfl, rfl, rfl, rfl⟩, meaning.trans ?_⟩
    exact (nonControlMem_clear hc (by cases k <;> rfl) hr).trans (congrArg _ (arithDir_eq ..))
  | toSt0 px j =>
    have meaning : exec (k.toSt0 px j) s = arithSt0 (k.toSt0 px j) (opOf k) (reverses k) j s := by cases k <;> rfl
    refine ⟨by cases k <;> exact ⟨rfl, rfl, rfl, rfl, rfl⟩, meaning.trans ?_⟩
    exact (nonControl_clear hc (by cases k <;> rfl)).trans (congrArg _ (arithDir_eq ..))
  | toSti px j =>
    have meaning : exec (k.toSti px j) s = arithSti (k.toSti px j) (opOf k) (reverses k) j false s := by cases k <;> rfl
    refine ⟨by cases k <;> exact ⟨rfl, rfl, rfl, rfl, rfl⟩, meaning.trans ?_⟩
    exact (nonControl_clear hc (by cases k <;> rfl)).trans (congrArg _ (arithDir_eq ..))
  | toStiPop px j =>
    have meaning : exec (k.toStiPop px j) s = arithSti (k.toStiPop px j) (opOf k) (reverses k) j true s := by
      cases k <;> rfl
    refine ⟨by cases k <;> exact ⟨rfl, rfl, rfl, rfl, rfl⟩, meaning.trans ?_⟩
    exact (nonControl_clear hc (by cases k <;> rfl)).trans (congrArg _ (arithDir_eq ..))

/-! ### The result of a form on numbers (R158 to R163, R184) -/

theorem any_pair (f : Operand → Bool) (a b : Operand) : [a, b].any f = (f a || f b) := by simp

theorem ready_pair (ha : a.empty = false) (hb : b.empty = false) : Ready [a, b] (some dest) s :=
  ⟨by rw [any_pair, ha, hb]; rfl, fun h => nomatch h⟩

theorem numbers_pair (ha : isNumber a.val = true) (hb : isNumber b.val = true) :
    ∀ o ∈ [a, b], isNumber o.val = true := by simp [ha, hb]

/-- On numbers the result of a form is delivered. -/
theorem exec_form (h : ArithForm k s i q a b p dest) (hc : s.pending = .clear) (ha : a.empty = false)
    (hb : b.empty = false) (na : isNumber a.val = true) (nb : isNumber b.val = true) :
    exec i s = finish i (respondResult [a, b] (k.result (rcOf s.cw) a.val b.val) p dest (start s i)) :=
  (checked_of_form h hc).passes (ready_pair ha hb) (numbers_pair na nb)

/-- The state of a form once its denormal operands are reported. -/
abbrev checkedStart (a b : Operand) (s : State) (i : Instr) : State := afterDenormal (a.denormal || b.denormal) (start s i)

theorem denormalCheck_pair (go : State → Except Refusal State)
    (hd : (a.denormal || b.denormal) = true → s.masked .d = true) :
    denormalCheck [a, b] go (start s i) = go (checkedStart a b s i) := by
  rw [denormalCheck_masked go (by rw [any_pair, (reported_start s i).masked]; exact hd), any_pair]

/-- A result delivered to a register, of which `deliver` says what it leaves. -/
theorem completes_deliverReg {w : Nat} {x : Exact} {y : RealValue} (plain : Plain i q s) (hc : s.pending = .clear)
    (run : exec i s = finish i (.ok (writeTo d (deliverReg w x t).2 (deliverReg w x t).1)))
    (delivers : deliver fmtExt w false x t = (u, some y)) (r : Reported cs s u) :
    Completes i s fun t =>
      Ran i q s t ∧ MemKept s t ∧ DeliveredTo d (extOfReal y) s t ∧ t.sw.c1 = u.sw.c1 ∧ Flagged cs s t := by
  rw [deliverReg, delivers] at run
  exact completes_writeTo plain hc r run

theorem exec_form_number {w : Nat} {x : Exact} (h : ArithForm k s i q a b (some w) dest) (hc : s.pending = .clear)
    (ha : a.empty = false) (hb : b.empty = false) (na : isNumber a.val = true) (nb : isNumber b.val = true)
    (hd : (a.denormal || b.denormal) = true → s.masked .d = true)
    (result : k.result (rcOf s.cw) a.val b.val = .number x) :
    exec i s = finish i (.ok (writeTo (some dest) (deliverReg w x (checkedStart a b s i)).2
      (deliverReg w x (checkedStart a b s i)).1)) := by
  rw [exec_form h hc ha hb na nb, result, respondResult, denormalCheck_pair _ hd]
  rfl

theorem reported_checkedStart (a b : Operand) (s : State) (i : Instr) :
    Reported (resultConds (a.denormal || b.denormal) false) s (checkedStart a b s i) :=
  reported_afterDenormal (reported_start s i) _

/-- Settles O34: the operands pass the checks, and an exact result or one in range is written as it is. -/
theorem arithmeticDeliversRoundedResult : Obligations.ArithmeticDeliversRoundedResult := by
  intro k s i q a b p d h hc ha hb na nb hd
  have r := reported_checkedStart a b s i
  refine ⟨fun v result => ?_, fun x result => ?_⟩
  · have run := exec_form h hc ha hb na nb
    rw [result, respondResult, denormalCheck_pair _ hd] at run
    exact completes_writeTo (d := some d) (checked_of_form h hc).plain hc (r.setC1 false) run
  · intro rounded range
    have inside : InRange fmtExt (roundP x p (rcOf (checkedStart a b s i).cw)) := by rw [r.rc]; exact range
    have delivers := deliver_inRange (toMem := false) inside
    rw [r.rc] at delivers
    have ends := completes_deliverReg (checked_of_form h hc).plain hc (exec_form_number h hc ha hb na nb hd result)
      delivers (reported_result r rounded.inexact rounded.up)
    rwa [c1_reportInexact up_of_exact_roundP] at ends

/-- A condition reported between a denormal operand and an inexact result, said first. -/
theorem Flagged.first {den inexact : Bool} (swap : ∀ w : StatusWord, (w.setFlag .d).setFlag c = (w.setFlag c).setFlag .d)
    (h : Flagged ((resultConds den false ++ [c]) ++ if inexact then [.p] else []) s t) :
    Flagged (c :: resultConds den inexact) s t := by
  cases den with
  | false => exact h
  | true =>
    obtain ⟨flags, es, busy, ferr⟩ := h
    refine ⟨flags.trans ?_, es.trans ?_, busy.trans ?_, ferr.trans ?_⟩
    · simp [resultConds, swap]
    all_goals simp [resultConds, Bool.or_left_comm]

/-- Settles O38: Deliver case by case of the rounded exponent. -/
theorem arithmeticOverflowAndUnderflow : Obligations.ArithmeticOverflowAndUnderflow := by
  intro k s i q a b p d x h hc ha hb na nb hd result den rounded z
  have r := reported_checkedStart a b s i
  have run := exec_form_number h hc ha hb na nb hd result
  have plain := (checked_of_form h hc).plain
  refine ⟨fun great => ?_, fun tiny => ?_⟩
  · have high : fmtExt.emax < (roundP x p (rcOf (checkedStart a b s i).cw)).exponent := by rw [r.rc]; exact great
    by_cases masked : s.masked .o = true
    · have delivers := deliver_overflow_masked (toMem := false) high (by rw [r.masked, masked])
      rw [r.rc] at delivers
      obtain ⟨t, ends, -, -, dest, c1, flagged⟩ := completes_deliverReg plain hc run delivers (reported_overflowMasked r _)
      exact ⟨t, ends, (if_pos masked).mpr ⟨dest, flagged, c1⟩⟩
    · have delivers := deliver_overflow_reg high (by rw [r.masked, Bool.eq_false_of_not_eq_true masked])
      rw [r.rc] at delivers
      obtain ⟨t, ends, -, -, dest, c1, flagged⟩ :=
        completes_deliverReg plain hc run delivers (reported_reportInexact (r.signal .o) _ _)
      rw [c1_reportInexact up_of_exact_roundP] at c1
      exact ⟨t, ends, (if_neg masked).mpr ⟨dest, Flagged.first (fun _ => rfl) flagged, c1⟩⟩
  · have low : (roundP x p (rcOf (checkedStart a b s i).cw)).exponent < fmtExt.emin := by rw [r.rc]; exact tiny
    by_cases masked : s.masked .u = true
    · have delivers := deliver_underflow_masked (toMem := false) (by decide) low (by rw [r.masked, masked])
      rw [r.rc] at delivers
      obtain ⟨t, ends, -, -, dest, c1, flagged⟩ := completes_deliverReg plain hc run delivers (reported_underflowMasked r _)
      rw [underflowMasked, c1_reportInexact up_of_exact] at c1
      exact ⟨t, ends, (if_pos masked).mpr ⟨dest, flagged, c1⟩⟩
    · have delivers := deliver_underflow_reg (by decide) low (by rw [r.masked, Bool.eq_false_of_not_eq_true masked])
      rw [r.rc] at delivers
      obtain ⟨t, ends, -, -, dest, c1, flagged⟩ :=
        completes_deliverReg plain hc run delivers (reported_reportInexact (r.signal .u) _ _)
      rw [c1_reportInexact up_of_exact_roundP] at c1
      exact ⟨t, ends, (if_neg masked).mpr ⟨dest, Flagged.first (fun _ => rfl) flagged, c1⟩⟩

end Sys2Proof.Arithmetic


/-! PROOFS. The register format by its three fields (R134, R135, R145): the class as a condition on the biased exponent and
the significand as numbers. -/

namespace Sys2Proof.Fields

open Sys2Proof Sys2Proof.Machine Sys2Proof.Loads Sys2Proof.Arithmetic

variable {v w : Ext}

/-! ### The fields of a value put together -/

@[simp] theorem signOf_mkExt (s : Bool) (e : BitVec 15) (m : BitVec 64) : signOf (mkExt s e m) = s := by
  change (BitVec.ofBool s ++ e ++ m).getLsbD 79 = s
  rw [BitVec.getLsbD_append, if_neg (by decide), BitVec.getLsbD_append, if_neg (by decide)]
  simp

@[simp] theorem sigOf_mkExt (s : Bool) (e : BitVec 15) (m : BitVec 64) : sigOf (mkExt s e m) = m :=
  (BitVec.extractLsb'_append_eq_of_add_le (by decide)).trans BitVec.extractLsb'_eq_self

theorem mkExt_fields (v : Ext) : mkExt (signOf v) (expOf v) (sigOf v) = v :=
  ext_of_fields (signOf_mkExt ..) (expOf_mkExt ..) (sigOf_mkExt ..)

/-! ### The class (R145) -/

/-- The class by the biased exponent and the significand. -/
def classOfFields (e m : Nat) : Machine.Class :=
  if e = 0 then if 2 ^ 63 ≤ m then .pseudoDenormal else if m = 0 then .zero else .denormal
  else if e = 32767 then
    if 2 ^ 63 ≤ m then (if m = 2 ^ 63 then .infinity else if 2 ^ 63 + 2 ^ 62 ≤ m then .qnan else .snan)
    else if m = 0 then .pseudoInfinity else .pseudoNan
  else if 2 ^ 63 ≤ m then .normal else .unnormal

theorem toNat_fraction (v : Ext) : (v.extractLsb' 0 63).toNat = (sigOf v).toNat % 2 ^ 63 := by
  simp [sigOf, BitVec.extractLsb'_toNat]

theorem integerBit_iff (v : Ext) : v.getLsbD 63 = true ↔ 2 ^ 63 ≤ (sigOf v).toNat := by
  have bit : v.getLsbD 63 = (sigOf v).msb := by simp [sigOf, BitVec.msb_eq_getLsbD_last]
  rw [bit, BitVec.msb_eq_decide, decide_eq_true_iff]

theorem quietBit_iff (v : Ext) (h : 2 ^ 63 ≤ (sigOf v).toNat) :
    (v.extractLsb' 0 63).getLsbD 62 = true ↔ 2 ^ 63 + 2 ^ 62 ≤ (sigOf v).toNat := by
  have lt := (sigOf v).isLt
  have bit : (v.extractLsb' 0 63).getLsbD 62 = (v.extractLsb' 0 63).msb := by simp [BitVec.msb_eq_getLsbD_last]
  rw [bit, BitVec.msb_eq_decide, decide_eq_true_iff, toNat_fraction]
  omega

theorem classOf_eq (v : Ext) : classOf v = classOfFields (expOf v).toNat (sigOf v).toNat := by
  have lt := (sigOf v).isLt
  have exp (n : Nat) (h : n < 2 ^ 15) : expOf v = BitVec.ofNat 15 n ↔ (expOf v).toNat = n := by
    rw [← BitVec.toNat_inj, BitVec.toNat_ofNat, Nat.mod_eq_of_lt h]
  have fraction : v.extractLsb' 0 63 = 0#63 ↔ (sigOf v).toNat % 2 ^ 63 = 0 := by
    rw [← BitVec.toNat_inj, toNat_fraction]; rfl
  unfold classOf classOfFields
  dsimp only
  simp only [integerBit_iff, fraction, exp 0 (by decide), exp 0x7FFF (by decide)]
  by_cases integer : 2 ^ 63 ≤ (sigOf v).toNat
  · have m : (sigOf v).toNat % 2 ^ 63 = 0 ↔ (sigOf v).toNat = 2 ^ 63 := by omega
    simp only [if_pos integer, m, quietBit_iff v integer]
  · have m : (sigOf v).toNat % 2 ^ 63 = 0 ↔ (sigOf v).toNat = 0 := by omega
    simp only [if_neg integer, m]

theorem classOf_mkExt (s : Bool) (e : BitVec 15) (m : BitVec 64) :
    classOf (mkExt s e m) = classOfFields e.toNat m.toNat := by rw [classOf_eq, expOf_mkExt, sigOf_mkExt]

/-! ### Each class by the fields -/

theorem classOf_zero_iff : classOf v = .zero ↔ (expOf v).toNat = 0 ∧ (sigOf v).toNat = 0 := by
  rw [classOf_eq, classOfFields]; split_ifs <;> simp <;> omega

theorem isDenormal_iff : isDenormal v = true ↔ (expOf v).toNat = 0 ∧ (sigOf v).toNat ≠ 0 := by
  rw [isDenormal, classOf_eq, classOfFields]; split_ifs <;> simp <;> omega

theorem classOf_normal_iff : classOf v = .normal ↔
    (expOf v).toNat ≠ 0 ∧ (expOf v).toNat ≠ 32767 ∧ 2 ^ 63 ≤ (sigOf v).toNat := by
  rw [classOf_eq, classOfFields]; split_ifs <;> simp <;> omega

theorem classOf_infinity_iff : classOf v = .infinity ↔ (expOf v).toNat = 32767 ∧ (sigOf v).toNat = 2 ^ 63 := by
  rw [classOf_eq, classOfFields]; split_ifs <;> simp <;> omega

theorem classOf_qnan_iff : classOf v = .qnan ↔ (expOf v).toNat = 32767 ∧ 2 ^ 63 + 2 ^ 62 ≤ (sigOf v).toNat := by
  rw [classOf_eq, classOfFields]; split_ifs <;> simp <;> omega

theorem classOf_snan_iff : classOf v = .snan ↔
    (expOf v).toNat = 32767 ∧ 2 ^ 63 < (sigOf v).toNat ∧ (sigOf v).toNat < 2 ^ 63 + 2 ^ 62 := by
  rw [classOf_eq, classOfFields]; split_ifs <;> simp <;> omega

theorem isFiniteNonzero_iff : isFiniteNonzero v = true ↔
    (expOf v).toNat ≠ 32767 ∧ (sigOf v).toNat ≠ 0 ∧ ((expOf v).toNat = 0 ∨ 2 ^ 63 ≤ (sigOf v).toNat) := by
  rw [isFiniteNonzero, Bool.or_eq_true, beq_iff_eq, classOf_normal_iff, isDenormal_iff]
  omega

theorem isZero_iff : isZero v = true ↔ (expOf v).toNat = 0 ∧ (sigOf v).toNat = 0 := by
  rw [isZero, beq_iff_eq, classOf_zero_iff]

theorem isInf_iff : isInf v = true ↔ (expOf v).toNat = 32767 ∧ (sigOf v).toNat = 2 ^ 63 := by
  rw [isInf, beq_iff_eq, classOf_infinity_iff]

/-- There is one zero of each sign. -/
theorem eq_zero_of_isZero (h : isZero v = true) : v = zero (signOf v) := by
  obtain ⟨e, m⟩ := isZero_iff.1 h
  rw [← mkExt_fields v, zero, signOf_mkExt, BitVec.eq_of_toNat_eq (y := 0#15) e, BitVec.eq_of_toNat_eq (y := 0#64) m]

/-- There is one infinity of each sign. -/
theorem eq_infinity_of_isInf (h : isInf v = true) : v = infinity (signOf v) := by
  obtain ⟨e, m⟩ := isInf_iff.1 h
  rw [← mkExt_fields v, infinity, signOf_mkExt, BitVec.eq_of_toNat_eq (y := 0x7FFF#15) e,
    BitVec.eq_of_toNat_eq (y := 0x8000000000000000#64) m]

@[simp] theorem isInf_infinity (neg : Bool) : isInf (infinity neg) = true := by cases neg <;> decide

@[simp] theorem isZero_zero (neg : Bool) : isZero (zero neg) = true := by cases neg <;> decide

@[simp] theorem signOf_infinity (neg : Bool) : signOf (infinity neg) = neg := signOf_mkExt ..

@[simp] theorem signOf_zero (neg : Bool) : signOf (zero neg) = neg := signOf_mkExt ..

/-- A number is a zero, finite and not zero, or an infinity. -/
theorem number_cases (h : isNumber v = true) : isZero v = true ∨ isFiniteNonzero v = true ∨ isInf v = true := by
  obtain ⟨hu, hn⟩ := isNumber_iff.1 h
  cases cls : classOf v <;> simp [isZero, isFiniteNonzero, isDenormal, isInf, isUnsupported, isNan, cls] at hu hn ⊢

theorem isNumber_of_finiteNonzero (h : isFiniteNonzero v = true) : isNumber v = true := by
  cases cls : classOf v <;> simp [isFiniteNonzero, isDenormal, isNumber, isUnsupported, isNan, cls] at h ⊢

theorem isNumber_of_isZero (h : isZero v = true) : isNumber v = true := by
  have cls : classOf v = .zero := beq_iff_eq.1 h
  simp [isNumber, isUnsupported, isNan, cls]

theorem isNumber_of_isInf (h : isInf v = true) : isNumber v = true := by
  have cls : classOf v = .infinity := beq_iff_eq.1 h
  simp [isNumber, isUnsupported, isNan, cls]

theorem isDenormal_of_isZero (h : isZero v = true) : isDenormal v = false := by
  have cls : classOf v = .zero := beq_iff_eq.1 h
  simp [isDenormal, cls]

theorem isDenormal_of_isInf (h : isInf v = true) : isDenormal v = false := by
  have cls : classOf v = .infinity := beq_iff_eq.1 h
  simp [isDenormal, cls]

theorem finiteNonzero_of_isDenormal (h : isDenormal v = true) : isFiniteNonzero v = true := by
  rw [isFiniteNonzero, h, Bool.or_true]

theorem isZero_of_isInf (h : isInf v = true) : isZero v = false := by
  have cls : classOf v = .infinity := beq_iff_eq.1 h
  simp [isZero, cls]

/-! ### Exponents of finite numbers -/

theorem log2_sigOf_lt (v : Ext) : (sigOf v).toNat.log2 < 64 := by
  by_cases zero : (sigOf v).toNat = 0
  · rw [zero]; decide
  · exact (Nat.log2_lt zero).2 (sigOf v).isLt

theorem exponentOf_valOf (v : Ext) :
    exponentOf (valOf v) = ((sigOf v).toNat.log2 : Int) + ((max (expOf v).toNat 1 : Nat) - 16446) := rfl

/-- The exponent of a denormal lies at the foot of the format. -/
theorem exponentOf_denormal_lt (h : isDenormal v = true) : exponentOf (valOf v) < -16381 := by
  have := log2_sigOf_lt v
  rw [exponentOf_valOf, (isDenormal_iff.1 h).1]
  omega

end Sys2Proof.Fields


/-! PROOFS. The instructions on registers alone (R262 to R266, R321 to R330): each begins with the checks of R172 on its
sources, and what is left of it then. -/

namespace Sys2Proof.RegisterOps

open Sys2Proof Sys2Proof.Machine Sys2Proof.DataTransfer Sys2Proof.BasicArithmetic Sys2Proof.Running Sys2Proof.Delivery
open Sys2Proof.Arithmetic Sys2Proof.Fields

variable {s u : State} {i : Instr} {q : Option FarPtr} {ops : List Operand} {d : Option Dest}
  {go : State → Except Refusal State}

/-! ### What follows the checks -/

def sqrtStep (a : Operand) (t : State) : Except Refusal State :=
  respondResult [a] (sqrtExt a.val) (precOf t.cw) st0 t

def roundStep (a : Operand) (t : State) : Except Refusal State :=
  denormalCheck [a] (fun t =>
    if isZero a.val || isInf a.val then .ok (t.setC1 false)
    else
      let r := roundInt (valOf a.val) (rcOf t.cw)
      .ok ((t.reportInexact r.inexact r.up).setSt 0#3 (extOfNum { neg := (valOf a.val).neg, n := r.n, k := 0 }))) t

def premStep (kind : RemKind) (a b : Operand) (t : State) : Except Refusal State :=
  if isZero b.val || isInf a.val then
    .ok (t.respond .ia fun u => ((u.setC2 false).setC1 false).setSt 0#3 realIndefinite)
  else
    denormalCheck [a, b] (fun u =>
      if isInf b.val || isZero a.val then .ok ((u.setCodes false false false).setC1 false)
      else
        let r := remainder kind (valOf a.val) (valOf b.val)
        .ok ((u.remainderCodes r).writeRemainder (signOf a.val) r.r)) t

def extractStep (a : Operand) (t : State) : Except Refusal State :=
  if isZero a.val then .ok (t.respond .z fun u => (u.setC1 false).writePush (infinity true) a.val)
  else
    denormalCheck [a] (fun u =>
      if isInf a.val then .ok ((u.setC1 false).writePush (infinity false) a.val)
      else
        let x := valOf a.val
        .ok ((u.setC1 false).writePush (extOfInt (exponentOf x))
          (extOfNum { neg := x.neg, n := x.n, k := -(x.n.log2 : Int) }))) t

def scaleStep (a b : Operand) (t : State) : Except Refusal State :=
  if (isZero a.val && isInf b.val && !signOf b.val) || (isInf a.val && isInf b.val && signOf b.val) then
    .ok (t.invalidDest st0)
  else
    denormalCheck [a, b] (fun u =>
      if isInf a.val || isZero a.val then .ok (u.setC1 false)
      else if isInf b.val then
        .ok (u.exactDest st0 (if signOf b.val then zero (signOf a.val) else infinity (signOf a.val)))
      else
        let x := valOf a.val
        .ok (u.deliverScaled { x with k := x.k + scaleOf (valOf b.val) })) t

def exp2m1Step (a : Operand) (t : State) : Except Refusal State :=
  denormalCheck [a] (fun t =>
    if cmpExt (magnitude a.val) one == .greater then .ok (t.freeC1.setSt 0#3 (Config.freeExt t.draws))
    else if isZero a.val then .ok (t.exactDest st0 a.val)
    else .ok (t.deliverSt0 (t.numerics.exp2m1 (argOf a.val) (rcOf t.cw)))) t

def atanStep (y x : Operand) (t : State) : Except Refusal State :=
  denormalCheck [y, x] (fun t =>
    match t.atanSpecial y.val x.val st1Pop with
    | some u => .ok u
    | none => .ok (t.deliverDest st1Pop (t.numerics.atan2 (argOf y.val) (argOf x.val) (rcOf t.cw)))) t

def logStep (y x : Operand) (t : State) : Except Refusal State :=
  if logInvalid y.val x.val then .ok (t.invalidDest st1Pop)
  else if isZero x.val && !isInf y.val then
    .ok (t.respond .z fun u => u.exactDest st1Pop (infinity (!signOf y.val)))
  else
    denormalCheck [y, x] (fun u =>
      match logExact y.val x.val with
      | some v => .ok (u.exactDest st1Pop v)
      | none => .ok (u.deliverDest st1Pop (u.numerics.ylog2x (argOf y.val) (argOf x.val) (rcOf u.cw)))) t

def log1pStep (y x : Operand) (t : State) : Except Refusal State :=
  if cmpExt x.val (negate one) == .less || (isZero x.val && isInf y.val) then .ok (t.invalidDest st1Pop)
  else
    denormalCheck [y, x] (fun u =>
      if !inXp1Domain u.params x.val then .ok (u.freeC1.writeDest st1Pop (Config.freeExt u.draws))
      else if isZero x.val || isZero y.val then .ok (u.exactDest st1Pop (zero (signOf x.val ^^ signOf y.val)))
      else if isInf y.val then .ok (u.exactDest st1Pop (infinity (signOf x.val ^^ signOf y.val)))
      else .ok (u.deliverDest st1Pop (u.numerics.ylog2xp1 (argOf y.val) (argOf x.val) (rcOf u.cw)))) t

def trigStep (f : Trig) (a : Operand) (t : State) : Except Refusal State :=
  if isInf a.val then .ok (t.respond .ia fun u => f.responses.invalid ((u.setC2 false).setC1 false))
  else if !isZero a.val && decide (63 ≤ exponentOf (valOf a.val)) then .ok (t.setC2 true).freeC1
  else
    denormalCheck [a] (fun u =>
      if isZero a.val then .ok (f.onZero a.val (u.setC1 false)) else .ok (f.onNumber a.val u)) (t.setC2 false)

/-- The four trigonometric instructions, as R321 to R324 differ. -/
def sinTrig : Trig where
  pushes := false
  responses := toDest st0
  onZero a t := t.setSt 0#3 a
  onNumber a t := t.deliverSt0 (t.numerics.sin (argOf a) (rcOf t.cw))

def cosTrig : Trig where
  pushes := false
  responses := toDest st0
  onZero _ t := t.setSt 0#3 one
  onNumber a t := t.deliverSt0 (t.numerics.cos (argOf a) (rcOf t.cw))

def sincosTrig : Trig where
  pushes := true
  responses := toPush
  onZero a t := t.writePush a one
  onNumber a t := t.sinCos a

def tanTrig : Trig where
  pushes := true
  responses := toPush
  onZero a t := t.writePush a one
  onNumber a t := (t.deliverSt0 (t.numerics.tan (argOf a) (rcOf t.cw))).push one

/-! ### Each instruction begins with its checks -/

variable (p : List Prefix)

theorem checked_fsqrt (hc : s.pending = .clear) :
    Checked (.fsqrt p) none [s.stOperand 0#3] (some st0) (sqrtStep (s.stOperand 0#3)) s :=
  ⟨⟨rfl, rfl, rfl, rfl, rfl⟩, by change execFsqrt p s = _; exact nonControl_clear hc rfl⟩

theorem checked_frndint (hc : s.pending = .clear) :
    Checked (.frndint p) none [s.stOperand 0#3] (some st0) (roundStep (s.stOperand 0#3)) s :=
  ⟨⟨rfl, rfl, rfl, rfl, rfl⟩, by change execFrndint p s = _; exact nonControl_clear hc rfl⟩

theorem checked_fprem (hc : s.pending = .clear) :
    Checked (.fprem p) none [s.stOperand 0#3, s.stOperand 1#3] (some st0)
      (premStep .truncate (s.stOperand 0#3) (s.stOperand 1#3)) s :=
  ⟨⟨rfl, rfl, rfl, rfl, rfl⟩, by change execFprem p s = _; exact nonControl_clear hc rfl⟩

theorem checked_fprem1 (hc : s.pending = .clear) :
    Checked (.fprem1 p) none [s.stOperand 0#3, s.stOperand 1#3] (some st0)
      (premStep .nearest (s.stOperand 0#3) (s.stOperand 1#3)) s :=
  ⟨⟨rfl, rfl, rfl, rfl, rfl⟩, by change execFprem1 p s = _; exact nonControl_clear hc rfl⟩

theorem checked_fscale (hc : s.pending = .clear) :
    Checked (.fscale p) none [s.stOperand 0#3, s.stOperand 1#3] (some st0)
      (scaleStep (s.stOperand 0#3) (s.stOperand 1#3)) s :=
  ⟨⟨rfl, rfl, rfl, rfl, rfl⟩, by change execFscale p s = _; exact nonControl_clear hc rfl⟩

theorem checked_fxtract (hc : s.pending = .clear) :
    Checked (.fxtract p) none [s.stOperand 0#3] none (extractStep (s.stOperand 0#3)) s :=
  ⟨⟨rfl, rfl, rfl, rfl, rfl⟩, by change execFxtract p s = _; exact nonControl_clear hc rfl⟩

theorem checked_f2xm1 (hc : s.pending = .clear) :
    Checked (.f2xm1 p) none [s.stOperand 0#3] (some st0) (exp2m1Step (s.stOperand 0#3)) s :=
  ⟨⟨rfl, rfl, rfl, rfl, rfl⟩, by change execF2xm1 p s = _; exact nonControl_clear hc rfl⟩

theorem checked_fpatan (hc : s.pending = .clear) :
    Checked (.fpatan p) none [s.stOperand 1#3, s.stOperand 0#3] (some st1Pop)
      (atanStep (s.stOperand 1#3) (s.stOperand 0#3)) s :=
  ⟨⟨rfl, rfl, rfl, rfl, rfl⟩, by change execFpatan p s = _; exact nonControl_clear hc rfl⟩

theorem checked_fyl2x (hc : s.pending = .clear) :
    Checked (.fyl2x p) none [s.stOperand 1#3, s.stOperand 0#3] (some st1Pop)
      (logStep (s.stOperand 1#3) (s.stOperand 0#3)) s :=
  ⟨⟨rfl, rfl, rfl, rfl, rfl⟩, by change execFyl2x p s = _; exact nonControl_clear hc rfl⟩

theorem checked_fyl2xp1 (hc : s.pending = .clear) :
    Checked (.fyl2xp1 p) none [s.stOperand 1#3, s.stOperand 0#3] (some st1Pop)
      (log1pStep (s.stOperand 1#3) (s.stOperand 0#3)) s :=
  ⟨⟨rfl, rfl, rfl, rfl, rfl⟩, by change execFyl2xp1 p s = _; exact nonControl_clear hc rfl⟩

theorem checked_fsin (hc : s.pending = .clear) :
    Checked (.fsin p) none [s.stOperand 0#3] (some st0) (trigStep sinTrig (s.stOperand 0#3)) s :=
  ⟨⟨rfl, rfl, rfl, rfl, rfl⟩, by change execFsin p s = _; exact nonControl_clear hc rfl⟩

theorem checked_fcos (hc : s.pending = .clear) :
    Checked (.fcos p) none [s.stOperand 0#3] (some st0) (trigStep cosTrig (s.stOperand 0#3)) s :=
  ⟨⟨rfl, rfl, rfl, rfl, rfl⟩, by change execFcos p s = _; exact nonControl_clear hc rfl⟩

theorem checked_fsincos (hc : s.pending = .clear) :
    Checked (.fsincos p) none [s.stOperand 0#3] none (trigStep sincosTrig (s.stOperand 0#3)) s :=
  ⟨⟨rfl, rfl, rfl, rfl, rfl⟩, by change execFsincos p s = _; exact nonControl_clear hc rfl⟩

theorem checked_fptan (hc : s.pending = .clear) :
    Checked (.fptan p) none [s.stOperand 0#3] none (trigStep tanTrig (s.stOperand 0#3)) s :=
  ⟨⟨rfl, rfl, rfl, rfl, rfl⟩, by change execFptan p s = _; exact nonControl_clear hc rfl⟩

/-! ### An unmasked denormal operand (R172 step 4) -/

/-- What is left after the checks stops at a denormal operand. -/
def StopsAtDenormal (i : Instr) (go : State → Except Refusal State) (s : State) : Prop :=
  ∃ u, go (start s i) = .ok (u.signal .d) ∧ Reported [] s u

theorem stops_of_denormalCheck (r : Reported [] s u)
    (den : (ops.any fun a => a.denormal) = true) (unmasked : s.masked .d = false)
    (h : ∃ k, go (start s i) = denormalCheck ops k u) : StopsAtDenormal i go s := by
  obtain ⟨k, step⟩ := h
  exact ⟨u, step.trans (denormalCheck_unmasked k den ((r.masked .d).trans unmasked)), r⟩

/-- A result that is neither invalid nor a zero divide is stopped by a denormal operand. -/
theorem respondResult_denormal {x : OpResult} {prec : Option Nat} {dest : Dest} (hi : x ≠ .invalid)
    (hz : ∀ n, x ≠ .zeroDivide n) (den : (ops.any fun a => a.denormal) = true) (unmasked : u.masked .d = false) :
    respondResult ops x prec dest u = .ok (u.signal .d) := by
  cases x with
  | invalid => exact absurd rfl hi
  | zeroDivide n => exact absurd rfl (hz n)
  | exact v => rw [respondResult]; exact denormalCheck_unmasked _ den unmasked
  | number x => rw [respondResult]; exact denormalCheck_unmasked _ den unmasked

theorem sqrtExt_accepts {v : Ext} (h : (signOf v && !isZero v) = false) :
    sqrtExt v ≠ .invalid ∧ ∀ n, sqrtExt v ≠ .zeroDivide n := by
  unfold sqrtExt
  split_ifs with hz hs hi
  · exact ⟨nofun, nofun⟩
  · simp [hz, hs] at h
  · exact ⟨nofun, nofun⟩
  · exact ⟨nofun, nofun⟩

theorem eq_infinity_false {v : Ext} (hi : isInf v = true) (hs : signOf v = false) : v = infinity false := by
  rw [eq_infinity_of_isInf hi, hs]

theorem eq_infinity_true {v : Ext} (hi : isInf v = true) (hs : signOf v = true) : v = infinity true := by
  rw [eq_infinity_of_isInf hi, hs]

/-- The invalid pairs of FSCALE, said of the sign of the infinity or of the infinity itself. -/
theorem scaleInvalid_eq (a b : Ext) :
    ((isZero a && isInf b && !signOf b) || (isInf a && isInf b && signOf b)) =
      ((isZero a && b == infinity false) || (isInf a && b == infinity true)) := by
  have plus : (isInf b && !signOf b) = (b == infinity false) := by
    rw [Bool.eq_iff_iff]
    simp only [Bool.and_eq_true, Bool.not_eq_true', beq_iff_eq]
    exact ⟨fun h => eq_infinity_false h.1 h.2, by rintro rfl; simp⟩
  have minus : (isInf b && signOf b) = (b == infinity true) := by
    rw [Bool.eq_iff_iff]
    simp only [Bool.and_eq_true, beq_iff_eq]
    exact ⟨fun h => eq_infinity_true h.1 h.2, by rintro rfl; simp⟩
  rw [Bool.and_assoc, Bool.and_assoc, plus, minus]

theorem logInvalid_of_accepted {y x : Ext}
    (h : ((signOf x && !isZero x) || (isZero x && !isInf y) || (cmpExt x one == .equal && isInf y) ||
      (isInf x && isZero y)) = false) : logInvalid y x = false ∧ (isZero x && !isInf y) = false := by
  have apart : isZero y = true → isInf y = false := fun hz => by
    by_contra hi
    rw [isZero_of_isInf (by simpa using hi)] at hz
    cases hz
  unfold logInvalid
  simp only [Bool.or_eq_false_iff, Bool.and_eq_false_iff] at h ⊢
  obtain ⟨⟨⟨negative, divide⟩, unit⟩, infinite⟩ := h
  refine ⟨⟨⟨⟨negative, ?_⟩, unit⟩, ?_⟩, divide⟩
  · rcases divide with hx | hy
    · exact .inl hx
    · right
      by_contra hz
      rw [apart (by simpa using hz)] at hy
      cases hy
  · rcases infinite with hx | hy
    · exact .inl (.inl hx)
    · exact .inr hy

theorem stops_trig {f : Trig} (a : StIdx) (hi : isInf (s.st a) = false) (den : isDenormal (s.st a) = true)
    (unmasked : s.masked .d = false) : StopsAtDenormal i (trigStep f (s.stOperand a)) s := by
  have low := exponentOf_denormal_lt den
  refine stops_of_denormalCheck (ops := [s.stOperand a]) ((reported_start s i).setC2 false) (by simpa [State.stOperand])
    unmasked ?_
  have inRange : (!isZero (s.stOperand a).val && decide (63 ≤ exponentOf (valOf (s.stOperand a).val))) = false := by
    rw [Bool.and_eq_false_iff]
    exact .inr (decide_eq_false (by change ¬ 63 ≤ exponentOf (valOf (s.st a)); omega))
  have finite : isInf (s.stOperand a).val = false := hi
  exact ⟨_, (if_neg (Bool.eq_false_iff.1 finite)).trans (if_neg (Bool.eq_false_iff.1 inRange))⟩

/-- Every row of the register instructions: its checks, and the stop at a denormal operand. -/
theorem registerOp_row {p : List Prefix} {sources : List StIdx} (hc : s.pending = .clear)
    (row : (i, sources, d) ∈ registerOps p) :
    ∃ go, Checked i none (sources.map s.stOperand) d go s ∧
      (rejects (s.st 0#3) (s.st 1#3) i = false → (∃ l ∈ sources, isDenormal (s.st l) = true) → s.masked .d = false →
        StopsAtDenormal i go s) := by
  have operands (h : ∃ l ∈ sources, isDenormal (s.st l) = true) :
      ((sources.map s.stOperand).any fun a => a.denormal) = true := by
    simpa [State.stOperand] using h
  have r := reported_start s i
  simp only [registerOps, List.mem_cons, Prod.mk.injEq, List.not_mem_nil, or_false] at row
  rcases row with ⟨rfl, rfl, rfl⟩ | ⟨rfl, rfl, rfl⟩ | ⟨rfl, rfl, rfl⟩ | ⟨rfl, rfl, rfl⟩ | ⟨rfl, rfl, rfl⟩ |
    ⟨rfl, rfl, rfl⟩ | ⟨rfl, rfl, rfl⟩ | ⟨rfl, rfl, rfl⟩ | ⟨rfl, rfl, rfl⟩ | ⟨rfl, rfl, rfl⟩ | ⟨rfl, rfl, rfl⟩ |
    ⟨rfl, rfl, rfl⟩ | ⟨rfl, rfl, rfl⟩ | ⟨rfl, rfl, rfl⟩
  · refine ⟨_, checked_fsqrt p hc, fun accepted den unmasked => ⟨_, ?_, r⟩⟩
    obtain ⟨hi, hz⟩ := sqrtExt_accepts accepted
    exact respondResult_denormal hi hz (operands den) ((r.masked .d).trans unmasked)
  · exact ⟨_, checked_frndint p hc, fun _ den unmasked => stops_of_denormalCheck r (operands den) unmasked ⟨_, rfl⟩⟩
  · exact ⟨_, checked_fprem p hc, fun accepted den unmasked => stops_of_denormalCheck r (operands den) unmasked
      ⟨_, if_neg (by rw [Bool.or_comm]; exact Bool.eq_false_iff.1 accepted)⟩⟩
  · exact ⟨_, checked_fprem1 p hc, fun accepted den unmasked => stops_of_denormalCheck r (operands den) unmasked
      ⟨_, if_neg (by rw [Bool.or_comm]; exact Bool.eq_false_iff.1 accepted)⟩⟩
  · exact ⟨_, checked_fscale p hc, fun accepted den unmasked => stops_of_denormalCheck r (operands den) unmasked
      ⟨_, if_neg (by rw [scaleInvalid_eq]; exact Bool.eq_false_iff.1 accepted)⟩⟩
  · exact ⟨_, checked_fsin p hc, fun accepted den unmasked => stops_trig 0#3 accepted (by simpa using den) unmasked⟩
  · exact ⟨_, checked_fcos p hc, fun accepted den unmasked => stops_trig 0#3 accepted (by simpa using den) unmasked⟩
  · exact ⟨_, checked_f2xm1 p hc, fun _ den unmasked => stops_of_denormalCheck r (operands den) unmasked ⟨_, rfl⟩⟩
  · exact ⟨_, checked_fpatan p hc, fun _ den unmasked => stops_of_denormalCheck r (operands den) unmasked ⟨_, rfl⟩⟩
  · refine ⟨_, checked_fyl2x p hc, fun accepted den unmasked => stops_of_denormalCheck r (operands den) unmasked ?_⟩
    obtain ⟨invalid, divide⟩ := logInvalid_of_accepted accepted
    exact ⟨_, (if_neg (Bool.eq_false_iff.1 invalid)).trans (if_neg (Bool.eq_false_iff.1 divide))⟩
  · exact ⟨_, checked_fyl2xp1 p hc, fun accepted den unmasked => stops_of_denormalCheck r (operands den) unmasked
      ⟨_, if_neg (Bool.eq_false_iff.1 accepted)⟩⟩
  · exact ⟨_, checked_fxtract p hc, fun accepted den unmasked => stops_of_denormalCheck r (operands den) unmasked
      ⟨_, if_neg (Bool.eq_false_iff.1 accepted)⟩⟩
  · exact ⟨_, checked_fptan p hc, fun accepted den unmasked => stops_trig 0#3 accepted (by simpa using den) unmasked⟩
  · exact ⟨_, checked_fsincos p hc, fun accepted den unmasked => stops_trig 0#3 accepted (by simpa using den) unmasked⟩

end Sys2Proof.RegisterOps


/-! PROOFS. What the arithmetic and the register instructions answer before they compute: stack underflow, unsupported values,
NaNs, denormals, zero divides (R172, R182), and the stop at the reserved precision (U3). -/

namespace Sys2Proof.Responses

open Sys2Proof Sys2Proof.Machine Sys2Proof.DataTransfer Sys2Proof.BasicArithmetic Sys2Proof.Running Sys2Proof.Delivery
open Sys2Proof.Arithmetic Sys2Proof.Fields Sys2Proof.RegisterOps Sys2Proof.Stores Sys2Proof.Loads

variable {s t u : State} {i : Instr} {q : Option FarPtr} {d : Option Dest} {k : ArithKind} {a b : Operand} {dest : Dest}
  {go : State → Except Refusal State} {sources : List StIdx} {p : List Prefix}

/-! ### The sources of a row -/

theorem any_sources (f : Operand → Bool) (s : State) (sources : List StIdx) :
    (sources.map s.stOperand).any f = true ↔ ∃ l ∈ sources, f (s.stOperand l) = true := by simp

theorem any_sources_false (f : Operand → Bool) (s : State) (sources : List StIdx) :
    (sources.map s.stOperand).any f = false ↔ ∀ l ∈ sources, f (s.stOperand l) = false := by simp

theorem ready_sources (full : ∀ l ∈ sources, s.stTag l ≠ .empty) (room : d = none → s.stTag 7#3 = .empty) :
    Ready (sources.map s.stOperand) d s :=
  ⟨(any_sources_false ..).2 fun l hl => stEmpty_eq_false (full l hl), room⟩

theorem sourceNan_eq (s : State) (sources : List StIdx) : s.sourceNan sources = nanOf (sources.map s.stOperand) := by
  match sources with
  | [] => rfl
  | [_] => rfl
  | [_, _] => rfl
  | _ :: _ :: _ :: _ => rfl

/-! ### Empty sources (R182) -/

theorem c1_signal_isOver (u : State) : (u.signal .isOver).sw.c1 = true := by rw [State.signal_sw]; split <;> rfl

/-- FLD of an empty register: the underflow, then the push of the real indefinite, which can overflow (R203). -/
theorem fldSti_empty (p : List Prefix) (j : StIdx) (hc : s.pending = .clear) (empty : s.stTag j = .empty) :
    Completes (.fldSti p j) s fun t =>
      Ran (.fldSti p j) none s t ∧ MemKept s t ∧
        if s.masked .isUnder then
          Pushed realIndefinite s t ∧ t.sw.c1 = decide (s.stTag 7#3 ≠ .empty) ∧
            Flagged (if s.stTag 7#3 = .empty then [.isUnder] else [.isUnder, .isOver]) s t
        else StackKept s t ∧ t.sw.c1 = false ∧ Flagged [.isUnder] s t := by
  have begins := reported_start s (.fldSti p j)
  have under : Reported [.isUnder] s ((start s (.fldSti p j)).signal .isUnder) := begins.signal .isUnder
  have run := exec_fldSti p j hc
  rw [State.loadSt, begins.stEmpty, (stEmpty_iff s j).2 empty, if_pos rfl] at run
  obtain ⟨ran, mem⟩ := (plain_fldSti p j s).frame hc run
  refine ⟨_, run, ran, mem, ?_⟩
  by_cases masked : s.masked .isUnder = true
  · rw [if_pos masked, respond_masked _ ((begins.masked _).trans masked), State.loadPush, under.pushOverflows]
    by_cases room : s.stTag 7#3 = .empty
    · rw [pushOverflows_eq_false room, if_neg Bool.false_ne_true, if_pos room]
      exact ⟨(under.setC1 false).pushed _ _, (decide_eq_false (not_not_intro room)).symm,
        ((sameFlags_push ..).advance _).flagged (under.setC1 false).flagged⟩
    · have both : Reported [.isUnder, .isOver] s (((start s (.fldSti p j)).signal .isUnder).signal .isOver) :=
        under.signal .isOver
      rw [pushOverflows_eq_true room, if_pos rfl, if_neg room, respond_masked _ ((under.masked .isOver).trans masked)]
      refine ⟨both.pushed _ _, ?_, ((sameFlags_push ..).advance _).flagged both.flagged⟩
      rw [decide_eq_true room]
      exact c1_signal_isOver _
  · rw [if_neg masked, respond_unmasked _ (by rwa [begins.masked])]
    exact ⟨under.stackKept _, c1_signal_isUnder _, ((SameFlags.refl _).advance _).flagged under.flagged⟩

/-- FCMOVcc of an empty register (R223). -/
theorem moves_empty {cond : Eflags → Bool} {j : StIdx} (h : Moves i cond j s) (present : s.params.hasFcmov = true)
    (hc : s.pending = .clear) (empty : s.stTag j = .empty) :
    Completes i s fun t =>
      Ran i none s t ∧ MemKept s t ∧ t.sw.c1 = false ∧ Flagged [.isUnder] s t ∧
        if s.masked .isUnder then (if cond s.eflags then Wrote 0#3 realIndefinite s t else StackKept s t)
        else StackKept s t := by
  have begins := reported_start s i
  have run := h.run present hc
  rw [begins.stEmpty, (stEmpty_iff s j).2 empty, if_pos rfl] at run
  refine h.plain.underflows (done := fun t => if cond s.eflags then Wrote 0#3 realIndefinite s t else StackKept s t) hc
    begins run (fun v => ?_) (fun v => ?_) fun r => ?_
  · split
    · exact sameFlags_setSt ..
    · exact SameFlags.refl v
  · split <;> rfl
  · rw [r.eflags]
    split
    · exact r.wrote ..
    · exact r.stackKept _

/-- Settles O36: each instruction finds the empty source first. -/
theorem emptySourceUnderflowsStack : Obligations.EmptySourceUnderflowsStack := by
  refine ⟨fun k s i q a b p d h hc empty => ?_, fun p j s hc => ⟨fun i sources d row empty => ?_, fun empty => ⟨?_, ?_⟩⟩⟩
  · exact (checked_of_form h hc).underflow hc (by rwa [any_pair])
  · rcases List.mem_append.1 row with row | row
    · obtain ⟨go, checked, -⟩ := registerOp_row hc row
      obtain ⟨l, hl, tag⟩ := empty
      exact checked.underflow hc ((any_sources ..).2 ⟨l, hl, (stEmpty_iff s l).2 tag⟩)
    · simp only [List.mem_cons, List.not_mem_nil, or_false, Prod.mk.injEq] at row
      rcases row with ⟨rfl, rfl, rfl⟩ | ⟨rfl, rfl, rfl⟩
      · exact copies_empty p j false hc (by simpa using empty)
      · exact copies_empty p j true hc (by simpa using empty)
  · exact fldSti_empty p j hc empty
  · intro present i c row
    obtain ⟨cond, moves, rfl⟩ := conditionalMove_row row
    obtain ⟨t, run, ran, mem, c1, flagged, ends⟩ := moves_empty moves present hc empty
    refine ⟨t, run, ran, mem, c1, flagged, ?_⟩
    cases masked : s.masked .isUnder <;> rw [masked] at ends <;> exact ends

/-! ### Invalid operands, NaNs, zero divides, denormals (R172) -/

/-- Settles O37: the checks in their order, then the answers of R184. -/
theorem arithmeticSpecialResponses : Obligations.ArithmeticSpecialResponses := by
  refine ⟨fun k s i q a b p d h hc ha hb => ?_, fun p s hc i sources d row full room => ?_⟩
  · have checked := checked_of_form h hc
    have ready : Ready [a, b] (some d) s := ready_pair ha hb
    refine ⟨fun hu => ?_, fun ua ub => ⟨fun hs => ?_, fun sa sb hq => ?_, fun na nb => ?_⟩⟩
    · exact checked.unsupported hc ready (by simpa using hu)
    · exact checked.snan hc ready (by simp [ua, ub]) (by simpa using hs)
    · obtain ⟨t, run, ran, mem, dest, c1, flagged⟩ :=
        checked.qnan hc ready (by simp [ua, ub]) (by simp [sa, sb]) (by simpa using hq)
      exact ⟨t, run, ran, mem, flagged, dest, c1⟩
    · have run := exec_form h hc ha hb (isNumber_iff.2 ⟨ua, na⟩) (isNumber_iff.2 ⟨ub, nb⟩)
      have begins := reported_start s i
      refine ⟨fun result => ?_, fun n result => ?_, fun hi hz den unmasked => ?_⟩
      · rw [result, respondResult] at run
        exact responds_writeTo (d := some d) checked.plain hc begins run
      · rw [result, respondResult] at run
        exact responds_writeTo (d := some d) checked.plain hc begins run
      · rw [respondResult_denormal hi hz (by rwa [any_pair]) ((begins.masked .d).trans unmasked)] at run
        obtain ⟨t, run, ran, mem, stack, -, flagged⟩ := completes_kept checked.plain hc (begins.signal .d) run
        exact ⟨t, run, ran, mem, flagged, stack⟩
  · obtain ⟨go, checked, stops⟩ := registerOp_row hc row
    have ready := ready_sources full room
    refine ⟨fun hu => ?_, fun hu => ⟨fun hs => ?_, fun hs hq => ?_, fun nan accepted den unmasked => ?_⟩⟩
    · exact checked.unsupported hc ready ((any_sources ..).2 hu)
    · rw [sourceNan_eq]
      exact checked.snan hc ready ((any_sources_false ..).2 hu) (by simpa [State.stOperand] using hs)
    · obtain ⟨t, run, ran, mem, dest, c1, flagged⟩ := checked.qnan hc ready ((any_sources_false ..).2 hu)
        (by simpa [State.stOperand] using hs) (by simpa [State.stOperand] using hq)
      rw [← sourceNan_eq] at dest
      exact ⟨t, run, ran, mem, flagged, dest, c1⟩
    · have run := checked.passes ready fun o ho => by
        obtain ⟨l, hl, rfl⟩ := List.mem_map.1 ho
        exact isNumber_iff.2 ⟨hu l hl, nan l hl⟩
      obtain ⟨u, stop, r⟩ := stops accepted den unmasked
      rw [stop] at run
      obtain ⟨t, run, ran, mem, stack, -, flagged⟩ := completes_kept checked.plain hc (r.signal .d) run
      exact ⟨t, run, ran, mem, flagged, stack⟩

end Sys2Proof.Responses


/-! PROOFS. The stops that are the model's choice: operands past the end of the offset space (U13), and results the reserved
precision would round (U3). -/

namespace Sys2Proof.Stops

open Sys2Proof Sys2Proof.Machine Sys2Proof.DataTransfer Sys2Proof.BasicArithmetic Sys2Proof.Running Sys2Proof.Delivery
open Sys2Proof.Arithmetic Sys2Proof.Fields Sys2Proof.RegisterOps Sys2Proof.Responses

variable {i : Instr} {s : State} {m : MemForm} {n : Nat}

/-! ### The frames of a memory operand -/

theorem pastEnd_nonControlMem {body : Nat → State → Except Refusal State} (hc : s.pending = .clear)
    (hr : s.inRange m n = false) : s.nonControlMem i m n body = .fault .operandPastEnd := by
  simp only [State.nonControlMem, State.waiting, hc, hr, Bool.false_eq_true, if_false]

theorem pastEnd_controlMem {body : Nat → State → State} (hr : s.inRange m n = false) :
    s.controlMem i m n body = .fault .operandPastEnd := by
  simp only [State.controlMem, hr, Bool.false_eq_true, if_false]

theorem pastEnd_waiting {body : State → Result} (hc : s.pending = .clear) (h : body s = .fault .operandPastEnd) :
    s.waiting body = .fault .operandPastEnd := by
  simp only [State.waiting, hc, h]

theorem pastEnd_arithSingle {op : BinOp} {rev : Bool} (hc : s.pending = .clear) (hr : s.inRange m 4 = false) :
    arithSingle i op rev m s = .fault .operandPastEnd := pastEnd_nonControlMem hc hr

theorem pastEnd_arithDouble {op : BinOp} {rev : Bool} (hc : s.pending = .clear) (hr : s.inRange m 8 = false) :
    arithDouble i op rev m s = .fault .operandPastEnd := pastEnd_nonControlMem hc hr

theorem pastEnd_arithInt {op : BinOp} {rev : Bool} (hc : s.pending = .clear) (hr : s.inRange m n = false) :
    arithInt i op rev n m s = .fault .operandPastEnd := pastEnd_nonControlMem hc hr

theorem pastEnd_compareSingle {pops : Nat} (hc : s.pending = .clear) (hr : s.inRange m 4 = false) :
    compareSingle i m pops s = .fault .operandPastEnd := pastEnd_nonControlMem hc hr

theorem pastEnd_compareDouble {pops : Nat} (hc : s.pending = .clear) (hr : s.inRange m 8 = false) :
    compareDouble i m pops s = .fault .operandPastEnd := pastEnd_nonControlMem hc hr

theorem pastEnd_compareInt {pops : Nat} (hc : s.pending = .clear) (hr : s.inRange m n = false) :
    compareInt i m n pops s = .fault .operandPastEnd := pastEnd_nonControlMem hc hr

theorem pastEnd_storeSingle {pop : Bool} (hc : s.pending = .clear) (hr : s.inRange m 4 = false) :
    storeSingle i m pop s = .fault .operandPastEnd := pastEnd_nonControlMem hc hr

theorem pastEnd_storeDouble {pop : Bool} (hc : s.pending = .clear) (hr : s.inRange m 8 = false) :
    storeDouble i m pop s = .fault .operandPastEnd := pastEnd_nonControlMem hc hr

theorem pastEnd_storeInt {pop : Bool} (hc : s.pending = .clear) (hr : s.inRange m n = false) :
    storeInt i m n pop s = .fault .operandPastEnd := pastEnd_nonControlMem hc hr

theorem pastEnd_fnstcwBody (hr : s.inRange m 2 = false) :
    fnstcwBody i m s = .fault .operandPastEnd := pastEnd_controlMem hr

theorem pastEnd_fnstswBody (hr : s.inRange m 2 = false) :
    fnstswBody i m s = .fault .operandPastEnd := pastEnd_controlMem hr

theorem pastEnd_fnstenvBody (hr : s.inRange m (s.imageFormat i.prefixes).size = false) :
    fnstenvBody i m s = .fault .operandPastEnd := by unfold fnstenvBody; exact pastEnd_controlMem hr

theorem pastEnd_fnsaveBody (hr : s.inRange m ((s.imageFormat i.prefixes).size + 80) = false) :
    fnsaveBody i m s = .fault .operandPastEnd := by unfold fnsaveBody; exact pastEnd_controlMem hr

/-! ### Every instruction with a memory operand -/

theorem exec_pastEnd (hm : i.memForm = some m) (hres : i.isReserved = false)
    (hc : i.nonWaiting = false → s.pending = .clear) (hr : s.inRange m (i.operandBytes s) = false) :
    exec i s = .fault .operandPastEnd := by
  cases i with
  | faddM32 p m => cases hm; exact (pastEnd_arithSingle (hc rfl) hr : execFaddM32 p m s = _)
  | faddM64 p m => cases hm; exact (pastEnd_arithDouble (hc rfl) hr : execFaddM64 p m s = _)
  | fbld p m => cases hm; exact (pastEnd_nonControlMem (hc rfl) hr : execFbld p m s = _)
  | fbstp p m => cases hm; exact (pastEnd_nonControlMem (hc rfl) hr : execFbstp p m s = _)
  | fcomM32 p m => cases hm; exact (pastEnd_compareSingle (hc rfl) hr : execFcomM32 p m s = _)
  | fcomM64 p m => cases hm; exact (pastEnd_compareDouble (hc rfl) hr : execFcomM64 p m s = _)
  | fcompM32 p m => cases hm; exact (pastEnd_compareSingle (hc rfl) hr : execFcompM32 p m s = _)
  | fcompM64 p m => cases hm; exact (pastEnd_compareDouble (hc rfl) hr : execFcompM64 p m s = _)
  | fdivM32 p m => cases hm; exact (pastEnd_arithSingle (hc rfl) hr : execFdivM32 p m s = _)
  | fdivM64 p m => cases hm; exact (pastEnd_arithDouble (hc rfl) hr : execFdivM64 p m s = _)
  | fdivrM32 p m => cases hm; exact (pastEnd_arithSingle (hc rfl) hr : execFdivrM32 p m s = _)
  | fdivrM64 p m => cases hm; exact (pastEnd_arithDouble (hc rfl) hr : execFdivrM64 p m s = _)
  | fiaddM16i p m => cases hm; exact (pastEnd_arithInt (hc rfl) hr : execFiaddM16i p m s = _)
  | fiaddM32i p m => cases hm; exact (pastEnd_arithInt (hc rfl) hr : execFiaddM32i p m s = _)
  | ficomM16i p m => cases hm; exact (pastEnd_compareInt (hc rfl) hr : execFicomM16i p m s = _)
  | ficomM32i p m => cases hm; exact (pastEnd_compareInt (hc rfl) hr : execFicomM32i p m s = _)
  | ficompM16i p m => cases hm; exact (pastEnd_compareInt (hc rfl) hr : execFicompM16i p m s = _)
  | ficompM32i p m => cases hm; exact (pastEnd_compareInt (hc rfl) hr : execFicompM32i p m s = _)
  | fidivM16i p m => cases hm; exact (pastEnd_arithInt (hc rfl) hr : execFidivM16i p m s = _)
  | fidivM32i p m => cases hm; exact (pastEnd_arithInt (hc rfl) hr : execFidivM32i p m s = _)
  | fidivrM16i p m => cases hm; exact (pastEnd_arithInt (hc rfl) hr : execFidivrM16i p m s = _)
  | fidivrM32i p m => cases hm; exact (pastEnd_arithInt (hc rfl) hr : execFidivrM32i p m s = _)
  | fildM16i p m => cases hm; exact (pastEnd_nonControlMem (hc rfl) hr : execFildM16i p m s = _)
  | fildM32i p m => cases hm; exact (pastEnd_nonControlMem (hc rfl) hr : execFildM32i p m s = _)
  | fildM64i p m => cases hm; exact (pastEnd_nonControlMem (hc rfl) hr : execFildM64i p m s = _)
  | fimulM16i p m => cases hm; exact (pastEnd_arithInt (hc rfl) hr : execFimulM16i p m s = _)
  | fimulM32i p m => cases hm; exact (pastEnd_arithInt (hc rfl) hr : execFimulM32i p m s = _)
  | fistM16i p m => cases hm; exact (pastEnd_storeInt (hc rfl) hr : execFistM16i p m s = _)
  | fistM32i p m => cases hm; exact (pastEnd_storeInt (hc rfl) hr : execFistM32i p m s = _)
  | fistpM16i p m => cases hm; exact (pastEnd_storeInt (hc rfl) hr : execFistpM16i p m s = _)
  | fistpM32i p m => cases hm; exact (pastEnd_storeInt (hc rfl) hr : execFistpM32i p m s = _)
  | fistpM64i p m => cases hm; exact (pastEnd_storeInt (hc rfl) hr : execFistpM64i p m s = _)
  | fisubM16i p m => cases hm; exact (pastEnd_arithInt (hc rfl) hr : execFisubM16i p m s = _)
  | fisubM32i p m => cases hm; exact (pastEnd_arithInt (hc rfl) hr : execFisubM32i p m s = _)
  | fisubrM16i p m => cases hm; exact (pastEnd_arithInt (hc rfl) hr : execFisubrM16i p m s = _)
  | fisubrM32i p m => cases hm; exact (pastEnd_arithInt (hc rfl) hr : execFisubrM32i p m s = _)
  | fldM32 p m => cases hm; exact (pastEnd_nonControlMem (hc rfl) hr : execFldM32 p m s = _)
  | fldM64 p m => cases hm; exact (pastEnd_nonControlMem (hc rfl) hr : execFldM64 p m s = _)
  | fldM80 p m => cases hm; exact (pastEnd_nonControlMem (hc rfl) hr : execFldM80 p m s = _)
  | fmulM32 p m => cases hm; exact (pastEnd_arithSingle (hc rfl) hr : execFmulM32 p m s = _)
  | fmulM64 p m => cases hm; exact (pastEnd_arithDouble (hc rfl) hr : execFmulM64 p m s = _)
  | fstM32 p m => cases hm; exact (pastEnd_storeSingle (hc rfl) hr : execFstM32 p m s = _)
  | fstM64 p m => cases hm; exact (pastEnd_storeDouble (hc rfl) hr : execFstM64 p m s = _)
  | fstpM32 p m => cases hm; exact (pastEnd_storeSingle (hc rfl) hr : execFstpM32 p m s = _)
  | fstpM64 p m => cases hm; exact (pastEnd_storeDouble (hc rfl) hr : execFstpM64 p m s = _)
  | fstpM80 p m => cases hm; exact (pastEnd_nonControlMem (hc rfl) hr : execFstpM80 p m s = _)
  | fsubM32 p m => cases hm; exact (pastEnd_arithSingle (hc rfl) hr : execFsubM32 p m s = _)
  | fsubM64 p m => cases hm; exact (pastEnd_arithDouble (hc rfl) hr : execFsubM64 p m s = _)
  | fsubrM32 p m => cases hm; exact (pastEnd_arithSingle (hc rfl) hr : execFsubrM32 p m s = _)
  | fsubrM64 p m => cases hm; exact (pastEnd_arithDouble (hc rfl) hr : execFsubrM64 p m s = _)
  | fldcw p m => cases hm; exact (pastEnd_waiting (hc rfl) (pastEnd_controlMem hr) : execFldcw p m s = _)
  | fldenv p m => cases hm; exact (pastEnd_waiting (hc rfl) (pastEnd_controlMem hr) : execFldenv p m s = _)
  | fnsave p m => cases hm; exact (pastEnd_fnsaveBody hr : execFnsave p m s = _)
  | fnstcw p m => cases hm; exact (pastEnd_fnstcwBody hr : execFnstcw p m s = _)
  | fnstenv p m => cases hm; exact (pastEnd_fnstenvBody hr : execFnstenv p m s = _)
  | fnstswM16 p m => cases hm; exact (pastEnd_fnstswBody hr : execFnstswM16 p m s = _)
  | frstor p m => cases hm; exact (pastEnd_waiting (hc rfl) (pastEnd_controlMem hr) : execFrstor p m s = _)
  | fsave p m => cases hm; exact (pastEnd_waiting (hc rfl) (pastEnd_fnsaveBody hr) : execFsave p m s = _)
  | fstcw p m => cases hm; exact (pastEnd_waiting (hc rfl) (pastEnd_fnstcwBody hr) : execFstcw p m s = _)
  | fstenv p m => cases hm; exact (pastEnd_waiting (hc rfl) (pastEnd_fnstenvBody hr) : execFstenv p m s = _)
  | fstswM16 p m => cases hm; exact (pastEnd_waiting (hc rfl) (pastEnd_fnstswBody hr) : execFstswM16 p m s = _)
  | _ => first | exact absurd hres.symm Bool.false_ne_true | exact nomatch hm

/-! ### The reserved precision -/

theorem any_single (f : Operand → Bool) (a : Operand) : [a].any f = f a := by simp

theorem ready_st0 (full : s.stTag 0#3 ≠ .empty) (d : Dest) : Ready [s.stOperand 0#3] (some d) s :=
  ready_sources (sources := [0#3]) (by simpa using full) nofun

theorem number_st0 (h : isNumber (s.st 0#3) = true) : ∀ a ∈ [s.stOperand 0#3], isNumber a.val = true := by
  simpa [State.stOperand] using h

theorem sqrtExt_positive {v : Ext} (finite : isFiniteNonzero v = true) (positive : signOf v = false) :
    sqrtExt v = .number (sqrtNum (valOf v)) := by
  have zero : isZero v = false := by
    by_contra h
    rw [Stores.isZero_not_finiteNonzero (by simpa using h)] at finite
    cases finite
  rw [sqrtExt, zero, positive, isInf_finite finite]
  rfl

/-- Settles O18: the frames stop at an operand past the end, and the delivery of a number at the reserved precision. -/
theorem pastEndAndReservedPrecisionStop : Obligations.PastEndAndReservedPrecisionStop := by
  refine ⟨fun i m s hm hres hc hr => exec_pastEnd hm hres hc hr, fun k s i q a b d x h hc ha hb na nb hd result => ?_,
    fun p s hc full reserved finite positive hd => ?_⟩
  · rw [exec_form h hc ha hb na nb, result, respondResult, denormalCheck_pair _ hd]
    rfl
  · have r := reported_start s (.fsqrt p)
    rw [(checked_fsqrt p hc).passes (ready_st0 full st0) (number_st0 (isNumber_of_finiteNonzero finite)), sqrtStep,
      show (s.stOperand 0#3).val = s.st 0#3 from rfl, sqrtExt_positive finite positive, r.cw, reserved, respondResult,
      denormalCheck_masked _ (by rw [any_single, r.masked]; exact hd)]
    rfl

end Sys2Proof.Stops


/-! PROOFS. FSQRT (R262) and the exponents of rounded results (R156): a result rounded to p bits has the exponent of its
value, or one more. -/

namespace Sys2Proof.Roots

open Sys2Proof Sys2Proof.Machine Sys2Proof.BasicArithmetic Sys2Proof.Running Sys2Proof.Delivery Sys2Proof.FormatsNumerics
open Sys2Proof.Arithmetic Sys2Proof.Fields Sys2Proof.RegisterOps Sys2Proof.Responses Sys2Proof.Stops

variable {s t u : State} {v : Ext}

/-! ### The exponent of a rounded result -/

section Rounded

variable {K : Type} [Field K] [LinearOrder K] [IsStrictOrderedRing K]

/-- Rounding leaves a value between two multiples of the spacing between them. -/
theorem roundGrid_between {z : Exact} {q : Int} {y : K} {lo hi : Nat} (rc : RoundMode) (hc : IsCut (z.mag.cut q) y)
    (le : (lo : K) ≤ y) (lt : y ≤ hi) : lo ≤ (roundGrid z q rc).n ∧ (roundGrid z q rc).n ≤ hi := by
  have low : lo ≤ (z.mag.cut q).lo := Nat.lt_succ_iff.1 (by exact_mod_cast le.trans_lt hc.lt)
  have cut : (z.mag.cut q).lo ≤ hi := by exact_mod_cast hc.le.trans lt
  have high (off : ¬ (z.mag.cut q).exact = true) : (z.mag.cut q).lo + 1 ≤ hi := by
    have off : (z.mag.cut q).lo ≠ y := fun eq => off (hc.exact.2 eq.symm)
    exact_mod_cast (lt_of_le_of_ne hc.le off).trans_le lt
  unfold roundGrid
  dsimp only
  split_ifs with on away
  · exact ⟨low, cut⟩
  · exact ⟨low.trans (Nat.le_succ _), high on⟩
  · exact ⟨low, cut⟩

theorem log2_between {n p : Nat} (lo : 2 ^ (p - 1) ≤ n) (hi : n ≤ 2 ^ p) :
    p - 1 ≤ n.log2 ∧ n.log2 ≤ p := by
  have pos : n ≠ 0 := (lt_of_lt_of_le (by positivity) lo).ne'
  refine ⟨(Nat.le_log2 pos).2 lo, Nat.lt_succ_iff.1 ((Nat.log2_lt pos).2 (hi.trans_lt ?_))⟩
  exact Nat.pow_lt_pow_right (by norm_num) (by omega)

/-- The exponent of a value rounded to `p` significant bits. -/
theorem exponent_roundP {z : Exact} {y : K} {p : Nat} (hp : 0 < p) (rc : RoundMode)
    (hc : IsCut (z.mag.cut (z.mag.floorLog2 - p + 1)) y) (le : (2 : K) ^ (p - 1) ≤ y) (lt : y ≤ 2 ^ p) :
    z.mag.floorLog2 ≤ (roundP z p rc).exponent ∧ (roundP z p rc).exponent ≤ z.mag.floorLog2 + 1 := by
  obtain ⟨lo, hi⟩ := roundGrid_between (lo := 2 ^ (p - 1)) (hi := 2 ^ p) rc hc (by exact_mod_cast le) (by exact_mod_cast lt)
  obtain ⟨low, high⟩ := log2_between lo hi
  have spacing : (roundP z p rc).q = z.mag.floorLog2 - p + 1 := by
    unfold roundP roundGrid
    dsimp only
    split_ifs <;> rfl
  unfold Rounded.exponent
  rw [spacing, roundP]
  omega

/-- A value between two powers of two, measured in spacings. -/
theorem spacings_between {x : K} {e : Int} {p : Nat} (hp : 0 < p) (k : Int) (le : (2 : K) ^ e ≤ x * 2 ^ k)
    (lt : x * 2 ^ k < 2 ^ (e + 1)) :
    (2 : K) ^ (p - 1) ≤ x * 2 ^ (k - (e - p + 1)) ∧ x * 2 ^ (k - (e - p + 1)) ≤ 2 ^ p := by
  have pos : (0 : K) < 2 ^ (e - p + 1) := by positivity
  have split : x * (2 : K) ^ (k - (e - p + 1)) = x * 2 ^ k / 2 ^ (e - p + 1) := by
    rw [zpow_sub₀ two_ne_zero, mul_div_assoc]
  have low : (2 : K) ^ (p - 1) * 2 ^ (e - p + 1) = 2 ^ e := by
    rw [← zpow_natCast, ← zpow_add₀ two_ne_zero]; congr 1; omega
  have high : (2 : K) ^ p * 2 ^ (e - p + 1) = 2 ^ (e + 1) := by
    rw [← zpow_natCast, ← zpow_add₀ two_ne_zero]; congr 1; omega
  rw [split, le_div_iff₀ pos, div_le_iff₀ pos, low, high]
  exact ⟨le, lt.le⟩

end Rounded

theorem exponent_root {neg : Bool} {num p : Nat} (k : Int) (rc : RoundMode) (hn : 0 < num) (hp : 0 < p) :
    (Mag.root num k).floorLog2 ≤ (roundP { neg := neg, mag := .root num k } p rc).exponent ∧
      (roundP { neg := neg, mag := .root num k } p rc).exponent ≤ (Mag.root num k).floorLog2 + 1 := by
  obtain ⟨le, lt⟩ := root_floorLog2_bounds k hn
  obtain ⟨le, lt⟩ := spacings_between hp k le lt
  exact exponent_roundP (z := { neg := neg, mag := .root num k }) hp rc (root_cut num k _) le lt

theorem exponent_ratio {neg : Bool} {num den p : Nat} (k : Int) (rc : RoundMode) (hn : 0 < num) (hd : 0 < den)
    (hp : 0 < p) :
    (Mag.ratio num den k).floorLog2 ≤ (roundP { neg := neg, mag := .ratio num den k } p rc).exponent ∧
      (roundP { neg := neg, mag := .ratio num den k } p rc).exponent ≤ (Mag.ratio num den k).floorLog2 + 1 := by
  obtain ⟨le, lt⟩ := ratio_floorLog2_bounds k hn hd
  obtain ⟨le, lt⟩ := spacings_between hp k le lt
  exact exponent_roundP (z := { neg := neg, mag := .ratio num den k }) hp rc (ratio_cut num k _ hd) le lt

/-! ### Square roots (R184, R262) -/

theorem exponent_valOf_bounds (h : isFiniteNonzero v = true) :
    0 < (valOf v).n ∧ (valOf v).n < 2 ^ 64 ∧ -16445 ≤ (valOf v).k ∧ (valOf v).k ≤ 16320 := by
  obtain ⟨pos, lt⟩ := isFiniteNonzero_value h
  obtain ⟨top, -, -⟩ := isFiniteNonzero_iff.1 h
  have := (expOf v).isLt
  refine ⟨pos, lt, ?_, ?_⟩ <;> rw [valOf] <;> dsimp only <;> omega

/-- The precisions of PC are not zero. -/
theorem precOf_pos {cw : Word16} {w : Nat} (h : precOf cw = some w) : 0 < w := by
  unfold precOf at h
  split at h <;> cases h <;> decide

/-- A root lies far inside the exponent range. -/
theorem sqrt_inRange {w : Nat} (rc : RoundMode) (h : isFiniteNonzero v = true) (hw : 0 < w) :
    InRange fmtExt (roundP (sqrtNum (valOf v)) w rc) := by
  obtain ⟨pos, lt, lo, hi⟩ := exponent_valOf_bounds h
  have inside {num : Nat} {k : Int} (hn : 0 < num) (small : num < 2 ^ 65) (hk : -8223 ≤ k) (hk' : k ≤ 8160) :
      InRange fmtExt (roundP { neg := false, mag := .root num k } w rc) := by
    obtain ⟨below, above⟩ := exponent_root (neg := false) k rc hn hw
    have log : num.log2 < 65 := (Nat.log2_lt hn.ne').2 small
    simp only [Mag.floorLog2] at below above
    exact ⟨show (-16382 : Int) ≤ _ by omega, show _ ≤ (16383 : Int) by omega⟩
  unfold sqrtNum
  split
  · exact inside pos (by omega) (by omega) (by omega)
  · exact inside (by omega) (by omega) (by omega) (by omega)

theorem neg_sqrtNum (a : Sys2Proof.Num) : (sqrtNum a).neg = false := rfl

/-- Settles O40: the root is in range, its exact results and its invalid operands by their classes. -/
theorem squareRootDelivers : Obligations.SquareRootDelivers := by
  intro p s hc full
  have checked := checked_fsqrt p hc
  have begins := reported_start s (.fsqrt p)
  have step (number : isNumber (s.st 0#3) = true) : exec (.fsqrt p) s =
      finish (.fsqrt p) (respondResult [s.stOperand 0#3] (sqrtExt (s.st 0#3)) (precOf s.cw) st0 (start s (.fsqrt p))) :=
    checked.passes (ready_st0 full st0) (number_st0 number)
  refine ⟨fun w prec finite positive hd => ?_, fun exact => ?_, fun negative nonzero => ?_⟩
  · have r := reported_afterDenormal begins (isDenormal (s.st 0#3))
    have run := step (isNumber_of_finiteNonzero finite)
    rw [sqrtExt_positive finite positive, prec, respondResult,
      denormalCheck_masked _ (by rw [any_single, begins.masked]; exact hd), any_single] at run
    have inside : InRange fmtExt (roundP (sqrtNum (valOf (s.st 0#3))) w
        (rcOf (afterDenormal (isDenormal (s.st 0#3)) (start s (.fsqrt p))).cw)) := sqrt_inRange _ finite (precOf_pos prec)
    have delivers := deliver_inRange (toMem := false) inside
    rw [r.rc] at delivers
    have ends := completes_deliverReg (d := some st0) checked.plain hc run delivers (reported_result r _ _)
    rwa [c1_reportInexact up_of_exact_roundP] at ends
  · have result : sqrtExt (s.st 0#3) = .exact (s.st 0#3) := by
      rcases exact with zero | infinite
      · rw [sqrtExt, zero, if_pos rfl]
      · rw [infinite]; rfl
    have number : isNumber (s.st 0#3) = true := by
      rcases exact with zero | infinite
      · exact isNumber_of_isZero zero
      · rw [infinite]; rfl
    have normal : isDenormal (s.st 0#3) = false := by
      rcases exact with zero | infinite
      · exact isDenormal_of_isZero zero
      · rw [infinite]; rfl
    have run := step number
    rw [result, respondResult, denormalCheck, any_single, show (s.stOperand 0#3).denormal = false from normal,
      if_neg Bool.false_ne_true] at run
    exact completes_writeTo (d := some st0) checked.plain hc (begins.setC1 false) run
  · have zero : isZero (s.st 0#3) = false := by
      rcases nonzero with finite | infinite
      · by_contra h
        rw [Stores.isZero_not_finiteNonzero (by simpa using h)] at finite
        cases finite
      · exact isZero_of_isInf infinite
    have run := step (nonzero.elim isNumber_of_finiteNonzero isNumber_of_isInf)
    rw [show sqrtExt (s.st 0#3) = .invalid by rw [sqrtExt, zero, negative]; rfl, respondResult] at run
    exact responds_writeTo (d := some st0) checked.plain hc begins run

end Sys2Proof.Roots


/-! PROOFS. Numbers the register format holds exactly: they are delivered as they are, whatever the rounding mode (R156,
R163). -/

namespace Sys2Proof.ExactNumbers

open Sys2Proof Sys2Proof.Machine Sys2Proof.FormatsNumerics Sys2Proof.Arithmetic Sys2Proof.Fields

variable {n : Nat} {k : Int} {rc : RoundMode} {neg : Bool}

/-! ### Numbers of 64 significant bits -/

/-- At most `p` significant bits. -/
def FitsIn (p n : Nat) : Prop := 2 ^ (n.log2 + 1 - p) ∣ n

/-- At most the 64 significant bits of the register format. -/
abbrev Fits (n : Nat) : Prop := FitsIn 64 n

theorem fits_of_dvd {p e : Nat} (dvd : 2 ^ e ∣ n) (lt : n < 2 ^ (p + e)) : FitsIn p n := by
  by_cases zero : n = 0
  · rw [zero]; exact Nat.dvd_zero _
  · have log := (Nat.log2_lt zero).2 lt
    exact (Nat.pow_dvd_pow 2 (by omega)).trans dvd

theorem fits_of_lt {p : Nat} (lt : n < 2 ^ p) : FitsIn p n := fits_of_dvd (e := 0) (one_dvd _) lt

theorem log2_shiftLeft (h : n ≠ 0) (d : Nat) : (n <<< d).log2 = n.log2 + d := by
  have lo := Nat.log2_self_le h
  have hi := Nat.lt_log2_self (n := n)
  have pos : 0 < 2 ^ d := Nat.two_pow_pos d
  rw [Nat.shiftLeft_eq]
  refine (Nat.log2_eq_iff (by positivity)).2 ⟨?_, ?_⟩
  · rw [pow_add]
    exact Nat.mul_le_mul_right _ lo
  · rw [show n.log2 + d + 1 = n.log2 + 1 + d by omega, pow_add]
    exact Nat.mul_lt_mul_of_pos_right hi pos

theorem log2_shiftRight (n d : Nat) : (n >>> d).log2 = n.log2 - d := by
  induction d with
  | zero => rfl
  | succ d ih =>
    rw [Nat.shiftRight_succ, Nat.log2_eq_log_two, Nat.log_div_base, ← Nat.log2_eq_log_two, ih]
    omega

/-- A number shifted to 64 significant bits. -/
def normalized (n : Nat) : Nat := shiftNat n (63 - n.log2)

theorem log2_normalized (h : n ≠ 0) : (normalized n).log2 = 63 := by
  unfold normalized shiftNat
  split
  · rw [log2_shiftLeft h]; omega
  · rw [log2_shiftRight]; omega

theorem normalized_ne_zero (h : n ≠ 0) : normalized n ≠ 0 := by
  intro zero
  have := log2_normalized h
  rw [zero] at this
  exact absurd this (by decide)

/-! ### Their roundings (R156) -/

theorem floorLog2_exact (h : n ≠ 0) (k : Int) : (Mag.ratio n 1 k).floorLog2 = n.log2 + k := by
  have lo : (2 : ℚ) ^ (n.log2 : Int) ≤ n := by
    rw [zpow_natCast]; exact_mod_cast Nat.log2_self_le h
  have one : Nat.log2 1 = 0 := by decide
  rw [ratio_floorLog2_eq n k (by decide), one]
  simp only [Nat.cast_zero, sub_zero, Nat.cast_one, div_one, if_neg (not_lt.2 lo)]

/-- A value on the grid is not changed. -/
theorem roundGrid_exact {q : Int} {m : Nat} (h : n <<< (k - q).toNat = m * (1 <<< (q - k).toNat)) :
    roundGrid { neg := neg, mag := .ratio n 1 k } q rc = { n := m, q := q, inexact := false, up := false } := by
  have pos : 0 < 1 <<< (q - k).toNat := by rw [Nat.shiftLeft_eq]; positivity
  simp [roundGrid, Mag.cut, h, Nat.mul_div_cancel _ pos]

theorem roundP_exact (h : n ≠ 0) (fits : Fits n) :
    roundP { neg := neg, mag := .ratio n 1 k } 64 rc =
      { n := normalized n, q := n.log2 + k - 63, inexact := false, up := false } := by
  have spacing : (n.log2 : Int) + k - (64 : Nat) + 1 = n.log2 + k - 63 := by omega
  rw [roundP, floorLog2_exact h, spacing]
  refine roundGrid_exact ?_
  unfold normalized shiftNat
  by_cases short : n.log2 ≤ 63
  · rw [if_pos (by omega), show ((n.log2 : Int) + k - 63 - k).toNat = 0 by omega,
      show k - ((n.log2 : Int) + k - 63) = 63 - n.log2 by omega, Nat.shiftLeft_zero, Nat.mul_one]
  · rw [if_neg (by omega), show (k - ((n.log2 : Int) + k - 63)).toNat = 0 by omega,
      show ((n.log2 : Int) + k - 63 - k).toNat = n.log2 + 1 - 64 by omega,
      show (-(63 - (n.log2 : Int))).toNat = n.log2 + 1 - 64 by omega, Nat.shiftLeft_zero, Nat.shiftLeft_eq, Nat.one_mul,
      Nat.shiftRight_eq_div_pow, Nat.div_mul_cancel fits]

/-- A number on the denormal grid. -/
theorem roundGrid_denormal {q : Int} (h : q ≤ k) :
    roundGrid { neg := neg, mag := .ratio n 1 k } q rc =
      { n := n <<< (k - q).toNat, q := q, inexact := false, up := false } :=
  roundGrid_exact (by rw [show (q - k).toNat = 0 by omega, Nat.shiftLeft_zero, Nat.mul_one])

/-! ### Their encodings (R135) -/

/-- A normalized number has the encoding of the number. -/
theorem extOfNum_normalized (h : n ≠ 0) (normal : -16382 ≤ (n.log2 : Int) + k) :
    extOfNum { neg := neg, n := normalized n, k := n.log2 + k - 63 } = extOfNum { neg := neg, n := n, k := k } := by
  have log := log2_normalized h
  have exponent : ((normalized n).log2 : Int) + (n.log2 + k - 63) = n.log2 + k := by omega
  have encodings : encodeFinite fmtExt (normalized n) (n.log2 + k - 63) = encodeFinite fmtExt n k := by
    have emin : fmtExt.emin = -16382 := rfl
    have prec : ((fmtExt.prec : Int) - 1) = 63 := rfl
    unfold encodeFinite
    dsimp only
    rw [if_neg h, if_neg (normalized_ne_zero h), exponent, emin, if_pos normal, if_pos normal, prec, log]
    rfl
  rw [extOfNum, extOfNum, encodings]

/-- A number below the normal range has the encoding it has on the denormal grid. -/
theorem extOfNum_denormal (h : n ≠ 0) (tiny : (n.log2 : Int) + k < -16382) (grid : -16445 ≤ k) :
    extOfNum { neg := neg, n := n <<< (k - -16445).toNat, k := -16445 } = extOfNum { neg := neg, n := n, k := k } := by
  have nonzero : n <<< (k - -16445).toNat ≠ 0 := by rw [Nat.shiftLeft_eq]; positivity
  have exponent : ((n <<< (k - -16445).toNat).log2 : Int) + -16445 = n.log2 + k := by
    rw [log2_shiftLeft h]; omega
  have encodings : encodeFinite fmtExt (n <<< (k - -16445).toNat) (-16445) = encodeFinite fmtExt n k := by
    have emin : fmtExt.emin = -16382 := rfl
    have low : ((-16445 : Int) - fmtExt.emin + fmtExt.prec - 1) = 0 := rfl
    have shift : k - fmtExt.emin + fmtExt.prec - 1 = k - -16445 := by change k - -16382 + 64 - 1 = _; omega
    unfold encodeFinite
    dsimp only
    rw [if_neg h, if_neg nonzero, exponent, emin, if_neg (not_le.2 tiny), if_neg (not_le.2 tiny), ← emin, low, shift]
    unfold shiftNat
    rw [if_pos le_rfl, if_pos (by omega)]
    rfl
  rw [extOfNum, extOfNum, encodings]

end Sys2Proof.ExactNumbers


/-! PROOFS. The remainder of FPREM and FPREM1 (R263, R264): the reduction on a common grid, its exactness, and the result
that the register format holds. -/

namespace Sys2Proof.Remainders

open Sys2Proof Sys2Proof.Machine Sys2Proof.FormatsNumerics Sys2Proof.Arithmetic Sys2Proof.Fields Sys2Proof.ExactNumbers

variable {kind : RemKind} {a b : Sys2Proof.Num}

/-! ### The reduction on a common grid -/

/-- The exponent of the grid that holds both operands. -/
def grid (a b : Sys2Proof.Num) : Int := min a.k b.k

/-- The dividend, and with the operands exchanged the divisor, in units of the grid. -/
def units (a b : Sys2Proof.Num) : Nat := a.n <<< (a.k - grid a b).toNat

theorem grid_comm (a b : Sys2Proof.Num) : grid a b = grid b a := min_comm ..

/-- Whether the quotient of a complete reduction is rounded up. -/
def roundsUp (kind : RemKind) (x y : Nat) : Bool :=
  match kind with
  | .truncate => false
  | .nearest => decide (y < 2 * (x % y)) || (decide (2 * (x % y) = y) && x / y % 2 == 1)

/-- The bits a partial reduction takes off. -/
def step (a b : Sys2Proof.Num) : Nat := 32 + (Config.premReduceOver32 (exponentOf a - exponentOf b).toNat).val

theorem step_bounds (a b : Sys2Proof.Num) : 32 ≤ step a b ∧ step a b ≤ 63 := by
  have := (Config.premReduceOver32 (exponentOf a - exponentOf b).toNat).isLt
  unfold step
  omega

/-- The divisor of a partial reduction, scaled. -/
def scaled (a b : Sys2Proof.Num) : Nat := units b a <<< (exponentOf a - exponentOf b - step a b).toNat

theorem remainder_up (complete : exponentOf a - exponentOf b < 64)
    (up : roundsUp kind (units a b) (units b a) = true) :
    remainder kind a b =
      { r := { neg := !a.neg, n := units b a - units a b % units b a, k := grid a b },
        quot := units a b / units b a + 1, complete := true } := by
  rw [units, units, grid_comm b a] at up ⊢
  unfold remainder
  cases kind with
  | truncate => cases up
  | nearest => exact (if_pos complete).trans (if_pos up)

theorem remainder_down (complete : exponentOf a - exponentOf b < 64)
    (down : roundsUp kind (units a b) (units b a) = false) :
    remainder kind a b =
      { r := { neg := a.neg, n := units a b % units b a, k := grid a b },
        quot := units a b / units b a, complete := true } := by
  rw [units, units, grid_comm b a] at down ⊢
  unfold remainder
  cases kind with
  | truncate => exact (if_pos complete).trans (if_neg Bool.false_ne_true)
  | nearest => exact (if_pos complete).trans (if_neg (Bool.eq_false_iff.1 down))

theorem remainder_partial (kind : RemKind) (far : ¬ exponentOf a - exponentOf b < 64) :
    remainder kind a b =
      { r := { neg := a.neg, n := units a b % scaled a b, k := grid a b }, quot := 0, complete := false } := by
  rw [scaled, units, units, grid_comm b a]
  exact if_neg far

/-- A quotient is rounded up only past half the divisor. -/
theorem le_of_roundsUp {x y : Nat} (up : roundsUp kind x y = true) : y ≤ 2 * (x % y) := by
  cases kind with
  | truncate => cases up
  | nearest =>
    simp only [roundsUp, Bool.or_eq_true, decide_eq_true_eq, Bool.and_eq_true] at up
    rcases up with above | ⟨tie, -⟩
    · exact above.le
    · exact tie.ge

theorem units_pos (ha : 0 < a.n) (b : Sys2Proof.Num) : 0 < units a b := by
  rw [units, Nat.shiftLeft_eq]; positivity

theorem complete_iff (kind : RemKind) (a b : Sys2Proof.Num) :
    (remainder kind a b).complete = true ↔ exponentOf a - exponentOf b < 64 := by
  by_cases complete : exponentOf a - exponentOf b < 64
  · cases up : roundsUp kind (units a b) (units b a)
    · rw [remainder_down complete up]; exact iff_of_true rfl complete
    · rw [remainder_up complete up]; exact iff_of_true rfl complete
  · rw [remainder_partial kind complete]; exact iff_of_false Bool.false_ne_true complete

theorem k_remainder (kind : RemKind) (a b : Sys2Proof.Num) : (remainder kind a b).r.k = grid a b := by
  by_cases complete : exponentOf a - exponentOf b < 64
  · cases up : roundsUp kind (units a b) (units b a)
    · rw [remainder_down complete up]
    · rw [remainder_up complete up]
  · rw [remainder_partial kind complete]

/-! ### The size of a remainder -/

theorem n_remainder_le (kind : RemKind) (a b : Sys2Proof.Num) : (remainder kind a b).r.n ≤ units a b := by
  by_cases complete : exponentOf a - exponentOf b < 64
  · cases up : roundsUp kind (units a b) (units b a)
    · rw [remainder_down complete up]; exact Nat.mod_le ..
    · have half := le_of_roundsUp up
      have := Nat.mod_le (units a b) (units b a)
      rw [remainder_up complete up]
      dsimp only
      omega
  · rw [remainder_partial kind complete]; exact Nat.mod_le ..

theorem n_remainder_le_divisor (hb : 0 < b.n) (complete : exponentOf a - exponentOf b < 64) :
    (remainder kind a b).r.n ≤ units b a := by
  cases up : roundsUp kind (units a b) (units b a)
  · rw [remainder_down complete up]
    exact (Nat.mod_lt _ (units_pos hb a)).le
  · rw [remainder_up complete up]
    exact Nat.sub_le ..

theorem units_of_le (h : a.k ≤ b.k) : units a b = a.n := by
  rw [units, grid, min_eq_left h, sub_self]
  exact Nat.shiftLeft_zero ..

theorem units_of_ge (h : b.k ≤ a.k) : units a b = a.n <<< (a.k - b.k).toNat := by rw [units, grid, min_eq_right h]

/-- A remainder has at most 64 significant bits. -/
theorem remainder_fits (ha : a.n < 2 ^ 64) (ha0 : 0 < a.n) (hb : b.n < 2 ^ 64) (hb0 : 0 < b.n) :
    Fits (remainder kind a b).r.n := by
  by_cases fine : a.k ≤ b.k
  · have le := n_remainder_le kind a b
    rw [units_of_le fine] at le
    exact fits_of_lt (le.trans_lt ha)
  by_cases complete : exponentOf a - exponentOf b < 64
  · have le := n_remainder_le_divisor (kind := kind) hb0 complete
    rw [units_of_le (not_le.1 fine).le] at le
    exact fits_of_lt (le.trans_lt hb)
  rw [remainder_partial kind complete]
  obtain ⟨low, high⟩ := step_bounds a b
  have log_a := (Nat.log2_lt ha0.ne').2 ha
  have log_b := (Nat.log2_lt hb0.ne').2 hb
  have shift : scaled a b = b.n <<< (exponentOf a - exponentOf b - step a b).toNat := by
    rw [scaled, units_of_le (not_le.1 fine).le]
  have lt : units a b % scaled a b < scaled a b := Nat.mod_lt _ (by rw [shift, Nat.shiftLeft_eq]; positivity)
  have size : scaled a b < 2 ^ (b.n.log2 + 1 + (exponentOf a - exponentOf b - step a b).toNat) := by
    rw [shift, Nat.shiftLeft_eq, pow_add _ (b.n.log2 + 1)]
    exact Nat.mul_lt_mul_of_pos_right Nat.lt_log2_self (Nat.two_pow_pos _)
  have divides {e : Nat} (dividend : e ≤ (a.k - b.k).toNat) (divisor : e ≤ (exponentOf a - exponentOf b - step a b).toNat) :
      2 ^ e ∣ units a b % scaled a b := by
    refine (Nat.dvd_mod_iff ?_).2 ?_
    · rw [shift, Nat.shiftLeft_eq]
      exact Dvd.dvd.mul_left (Nat.pow_dvd_pow 2 divisor) _
    · rw [units_of_ge (not_le.1 fine).le, Nat.shiftLeft_eq]
      exact Dvd.dvd.mul_left (Nat.pow_dvd_pow 2 dividend) _
  rw [exponentOf, exponentOf] at complete size divides
  by_cases coarse : (exponentOf a - exponentOf b - step a b).toNat ≤ (a.k - b.k).toNat
  · rw [exponentOf, exponentOf] at coarse
    refine fits_of_dvd (divides coarse le_rfl) (lt.trans (size.trans_le (Nat.pow_le_pow_right two_pos ?_)))
    omega
  · rw [exponentOf, exponentOf] at coarse
    refine fits_of_dvd (divides le_rfl (not_le.1 coarse).le) (lt.trans (size.trans_le (Nat.pow_le_pow_right two_pos ?_)))
    omega

/-- The exponent of a remainder is at most that of the dividend. -/
theorem exponent_remainder_le (ha : 0 < a.n) :
    exponentOf (remainder kind a b).r ≤ exponentOf a := by
  have le := n_remainder_le kind a b
  have log : (remainder kind a b).r.n.log2 ≤ (units a b).log2 := by
    rw [Nat.log2_eq_log_two, Nat.log2_eq_log_two]
    exact Nat.log_mono_right le
  rw [exponentOf, exponentOf, k_remainder]
  rw [units, log2_shiftLeft ha.ne'] at log
  have := min_le_left a.k b.k
  rw [grid] at log ⊢
  omega

/-! ### Exactness -/

theorem abs_toRat (a : Sys2Proof.Num) : |a.toRat| = a.n * (2 : ℚ) ^ a.k := by
  rw [Sys2Proof.Num.toRat, mul_assoc, abs_mul, abs_of_nonneg (by positivity : (0 : ℚ) ≤ a.n * 2 ^ a.k)]
  split <;> simp

theorem abs_toRat_units (a b : Sys2Proof.Num) : |a.toRat| = units a b * (2 : ℚ) ^ grid a b := by
  have le : grid a b ≤ a.k := min_le_left ..
  have power : (2 : ℚ) ^ a.k = 2 ^ (a.k - grid a b).toNat * 2 ^ grid a b := by
    rw [← zpow_natCast, ← zpow_add₀ two_ne_zero]; congr 1; omega
  rw [abs_toRat, power, units, Nat.shiftLeft_eq]
  push_cast
  ring

/-- Settles O42: the reduction is a division of natural numbers on the common grid. -/
theorem remainderIsExact : Obligations.RemainderIsExact := by
  intro kind a b ha hb x e
  have hy := units_pos hb a
  have unit : (0 : ℚ) < 2 ^ grid a b := by positivity
  have dividend := abs_toRat_units a b
  have divisor := abs_toRat_units b a
  rw [grid_comm b a] at divisor
  have size : |x.r.toRat| = x.r.n * (2 : ℚ) ^ grid a b := by rw [abs_toRat, k_remainder]
  have division : ((units a b % units b a : Nat) : ℚ) + units b a * (units a b / units b a : Nat) = units a b := by
    exact_mod_cast Nat.mod_add_div (units a b) (units b a)
  refine ⟨complete_iff kind a b, fun complete => ?_, fun far => ?_⟩
  · have near := (complete_iff kind a b).1 complete
    rw [dividend, divisor, size]
    cases up : roundsUp kind (units a b) (units b a)
    · have lt : (units a b % units b a : Nat) < (units b a : ℚ) := by exact_mod_cast Nat.mod_lt _ hy
      simp only [x, remainder_down near up, if_true, one_mul, true_and]
      refine ⟨by rw [← division]; ring, fun _ => mul_lt_mul_of_pos_right lt unit, fun nearest => ?_⟩
      subst nearest
      simp only [roundsUp, Bool.or_eq_false_iff, decide_eq_false_iff_not, Bool.and_eq_false_iff, not_lt, beq_eq_false_iff_ne,
        ne_eq] at up
      obtain ⟨notAbove, tie⟩ := up
      have half : (2 : ℚ) * (units a b % units b a : Nat) ≤ units b a := by exact_mod_cast notAbove
      rw [mul_div_right_comm, mul_le_mul_iff_left₀ unit, mul_left_inj' unit.ne', le_div_iff₀ two_pos,
        eq_div_iff two_ne_zero]
      refine ⟨by linarith, fun mid => ?_⟩
      have mid : 2 * (units a b % units b a) = units b a := by rw [mul_comm]; exact_mod_cast mid
      have := tie.resolve_left (not_not_intro mid)
      omega
    · have half := le_of_roundsUp up
      have lt := Nat.mod_lt (units a b) hy
      have rest : ((units b a - units a b % units b a : Nat) : ℚ) = units b a - (units a b % units b a : Nat) := by
        rw [Nat.cast_sub lt.le]
      have flipped : ((!a.neg) = a.neg) ↔ False := by simp
      simp only [x, remainder_up near up, flipped, if_false, rest, Nat.cast_add, Nat.cast_one]
      refine ⟨by rw [← division]; ring, fun truncate => ?_, fun nearest => ?_⟩
      · subst truncate; cases up
      · subst nearest
        have half : (units b a : ℚ) ≤ 2 * (units a b % units b a : Nat) := by exact_mod_cast half
        rw [mul_div_right_comm, mul_le_mul_iff_left₀ unit, mul_left_inj' unit.ne', le_div_iff₀ two_pos,
          eq_div_iff two_ne_zero]
        refine ⟨by linarith, fun mid => ?_⟩
        have mid : (units b a : ℚ) = 2 * (units a b % units b a : Nat) := by linarith
        have mid : units b a = 2 * (units a b % units b a) := by exact_mod_cast mid
        have odd : units a b / units b a % 2 = 1 := by
          simpa [roundsUp, mid.symm] using up
        omega
  · have away : ¬ exponentOf a - exponentOf b < 64 := mt (complete_iff kind a b).2 (Bool.eq_false_iff.1 far)
    obtain ⟨low, high⟩ := step_bounds a b
    have scale : (2 : ℚ) ^ (e - step a b) * |b.toRat| = scaled a b * 2 ^ grid a b := by
      have nonneg : 0 ≤ exponentOf a - exponentOf b - step a b := by omega
      rw [divisor, scaled, Nat.shiftLeft_eq]
      push_cast
      rw [← zpow_natCast, Int.toNat_of_nonneg nonneg]
      ring
    have pos : 0 < scaled a b := by rw [scaled, Nat.shiftLeft_eq]; positivity
    have division : ((units a b % scaled a b : Nat) : ℚ) + scaled a b * (units a b / scaled a b : Nat) = units a b := by
      exact_mod_cast Nat.mod_add_div (units a b) (scaled a b)
    have lt : ((units a b % scaled a b : Nat) : ℚ) < scaled a b := by exact_mod_cast Nat.mod_lt _ pos
    refine ⟨step a b, units a b / scaled a b, by exact_mod_cast low, by exact_mod_cast high, ?_, ?_, ?_⟩
    · simp only [x, remainder_partial kind away]
    · rw [scale, dividend, size]
      simp only [x, remainder_partial kind away]
      rw [← division]; ring
    · rw [scale, size]
      simp only [x, remainder_partial kind away]
      exact mul_lt_mul_of_pos_right lt unit

end Sys2Proof.Remainders


/-! PROOFS. FPREM and FPREM1, FRNDINT, FXTRACT (R263 to R266): the delivery of exact results, and the operands with results of
their own. -/

namespace Sys2Proof.Reductions

open Sys2Proof Sys2Proof.Machine Sys2Proof.BasicArithmetic Sys2Proof.Running Sys2Proof.Delivery
open Sys2Proof.Arithmetic Sys2Proof.Fields Sys2Proof.RegisterOps Sys2Proof.Responses Sys2Proof.Stops Sys2Proof.Roots
open Sys2Proof.ExactNumbers Sys2Proof.Remainders

variable {s t u : State} {i : Instr} {q : Option FarPtr} {cs : List Cond} {kind : RemKind} {d : Option Dest}
  {go : State → Except Refusal State} {p : List Prefix}

/-! ### The delivery of an exact result (R163) -/

/-- An exact result below the exponent range that an unmasked underflow moves. -/
def moved (x : Sys2Proof.Num) (u : State) : Bool := decide (exponentOf x < -16382) && !u.masked .u

theorem exponent_roundP_exact {x : Sys2Proof.Num} (nonzero : x.n ≠ 0) (fits : Fits x.n) (rc : RoundMode) :
    (roundP (exactNum x) 64 rc).exponent = exponentOf x := by
  have log := log2_normalized nonzero
  rw [exactNum, roundP_exact nonzero fits, Rounded.exponent, exponentOf]
  dsimp only
  omega

/-- In the exponent range it is delivered as it is. -/
theorem deliverReg_inside {x : Sys2Proof.Num} (nonzero : x.n ≠ 0) (fits : Fits x.n) (low : -16382 ≤ exponentOf x)
    (high : exponentOf x ≤ 16383) (u : State) : deliverReg 64 (exactNum x) u = (u.setC1 false, extOfNum x) := by
  have inside : InRange fmtExt (roundP (exactNum x) 64 (rcOf u.cw)) := by
    refine ⟨?_, ?_⟩ <;> rw [exponent_roundP_exact nonzero fits]
    · exact low
    · exact high
  rw [deliverReg, deliver_inRange inside, exactNum, roundP_exact nonzero fits, ← extOfNum_normalized nonzero low]
  rfl

/-- Below it, an unmasked underflow moves its exponent. -/
theorem deliverReg_tiny {x : Sys2Proof.Num} (nonzero : x.n ≠ 0) (fits : Fits x.n) (tiny : exponentOf x < -16382)
    (grid : -40958 ≤ exponentOf x) (unmasked : u.masked .u = false) :
    deliverReg 64 (exactNum x) u = ((u.signal .u).setC1 false, extOfNum { x with k := x.k + 24576 }) := by
  have low : (roundP (exactNum x) 64 (rcOf u.cw)).exponent < fmtExt.emin := by
    rw [exponent_roundP_exact nonzero fits]; exact tiny
  have normal : -16382 ≤ (x.n.log2 : Int) + (x.k + 24576) := by rw [exponentOf] at grid; omega
  rw [deliverReg, deliver_underflow_reg (by decide) low unmasked, exactNum, roundP_exact nonzero fits,
    ← extOfNum_normalized nonzero normal]
  refine congrArg _ (congrArg (fun k => extOfNum { neg := x.neg, n := normalized x.n, k := k }) ?_)
  change (x.n.log2 : Int) + x.k - 63 + 24576 = x.n.log2 + (x.k + 24576) - 63
  omega

theorem deliverReg_exact {x : Sys2Proof.Num} (nonzero : x.n ≠ 0) (fits : Fits x.n) (grid : -16445 ≤ x.k)
    (high : exponentOf x ≤ 16383) (u : State) :
    deliverReg 64 (exactNum x) u =
      if moved x u then ((u.signal .u).setC1 false, extOfNum { x with k := x.k + 24576 })
      else (u.setC1 false, extOfNum x) := by
  by_cases low : exponentOf x < -16382
  · by_cases masked : u.masked .u = true
    · have tiny : (roundP (exactNum x) 64 (rcOf u.cw)).exponent < fmtExt.emin := by
        rw [exponent_roundP_exact nonzero fits]; exact low
      have denormal : roundGrid (exactNum x) (fmtExt.emin - (64 - 1 : Nat)) (rcOf u.cw) = _ := roundGrid_denormal grid
      have stays : moved x u = false := by rw [moved, masked]; exact Bool.and_false _
      rw [deliverReg, deliver_underflow_masked (by decide) tiny masked, stays, if_neg Bool.false_ne_true, denormal,
        ← extOfNum_denormal nonzero low grid]
      rfl
    · have unmasked := Bool.eq_false_of_not_eq_true masked
      have moves : moved x u = true := by rw [moved, decide_eq_true low, unmasked]; rfl
      rw [moves, if_pos rfl, deliverReg_tiny nonzero fits low (by rw [exponentOf]; omega) unmasked]
  · have stays : moved x u = false := by rw [moved, decide_eq_false low]; rfl
    rw [stays, if_neg Bool.false_ne_true, deliverReg_inside nonzero fits (not_lt.1 low) high]

/-! ### FPREM and FPREM1 (R263, R264) -/

theorem codes_signal_u (u : State) : (u.signal .u).sw.c0 = u.sw.c0 ∧ (u.signal .u).sw.c2 = u.sw.c2 ∧
    (u.signal .u).sw.c3 = u.sw.c3 := by
  rw [State.signal_sw]; split <;> exact ⟨rfl, rfl, rfl⟩

/-- What is left of an instruction that writes a remainder. -/
theorem completes_writeRemainder {r : Sys2Proof.Num} {neg : Bool} (plain : Plain i q s) (hc : s.pending = .clear)
    (reported : Reported cs s u) (run : exec i s = finish i (.ok (u.writeRemainder neg r))) (fits : Fits r.n)
    (grid : -16445 ≤ r.k) (high : r.n ≠ 0 → exponentOf r ≤ 16383) :
    let tiny := decide (r.n ≠ 0 ∧ exponentOf r < -16382) && !s.masked .u
    Completes i s fun t =>
      Ran i q s t ∧ MemKept s t ∧
        Wrote 0#3 (if r.n = 0 then zero neg else extOfNum (if tiny then { r with k := r.k + 24576 } else r)) s t ∧
        Flagged (cs ++ if tiny then [.u] else []) s t ∧ t.sw.c2 = u.sw.c2 ∧ t.sw.c0 = u.sw.c0 ∧ t.sw.c3 = u.sw.c3 ∧
        t.sw.c1 = u.sw.c1 := by
  intro tiny
  obtain ⟨ran, mem⟩ := plain.frame hc run
  refine ⟨_, run, ran, mem, ?_⟩
  rw [State.writeRemainder]
  by_cases zero : r.n = 0
  · have whole : tiny = false := by simp [tiny, zero]
    rw [if_pos zero, if_pos zero, whole, if_neg Bool.false_ne_true, List.append_nil]
    exact ⟨reported.wrote .., ((sameFlags_setSt ..).advance _).flagged reported.flagged, rfl, rfl, rfl, rfl⟩
  · have same : tiny = moved r u := by simp [tiny, moved, zero, reported.masked]
    rw [if_neg zero, if_neg zero, same]
    simp only [deliverReg_exact zero fits grid (high zero) u]
    obtain ⟨c0, c2, c3⟩ := codes_signal_u u
    cases moved r u with
    | false =>
      rw [if_neg Bool.false_ne_true, if_neg Bool.false_ne_true, if_neg Bool.false_ne_true, List.append_nil]
      have r := (reported.setC1 false).setC1 u.sw.c1
      exact ⟨r.wrote .., ((sameFlags_setSt ..).advance _).flagged r.flagged, rfl, rfl, rfl, rfl⟩
    | true =>
      rw [if_pos rfl, if_pos rfl, if_pos rfl]
      have r := ((reported.signal .u).setC1 false).setC1 u.sw.c1
      exact ⟨r.wrote .., ((sameFlags_setSt ..).advance _).flagged r.flagged, c2, c0, c3, rfl⟩

theorem reported_remainderCodes (h : Reported cs s u) (r : Remainder) : Reported cs s (u.remainderCodes r) := by
  unfold State.remainderCodes
  split
  · exact (h.setCodes _ _ _).setC1 _
  · exact (h.setCodes _ _ _).freeC1

theorem c2_remainderCodes (u : State) (r : Remainder) : (u.remainderCodes r).sw.c2 = !r.complete := by
  unfold State.remainderCodes
  cases r.complete <;> rfl

theorem codes_remainderCodes (u : State) {r : Remainder} (complete : r.complete = true) :
    (u.remainderCodes r).sw.c0 = r.quot.testBit 2 ∧ (u.remainderCodes r).sw.c3 = r.quot.testBit 1 ∧
      (u.remainderCodes r).sw.c1 = r.quot.testBit 0 := by
  rw [State.remainderCodes, if_pos complete]; exact ⟨rfl, rfl, rfl⟩

/-- FPREM or FPREM1, by its kind. -/
theorem checked_prem (hc : s.pending = .clear)
    (row : (i, kind) ∈ [(Instr.fprem p, RemKind.truncate), (Instr.fprem1 p, RemKind.nearest)]) :
    Checked i none [s.stOperand 0#3, s.stOperand 1#3] (some st0) (premStep kind (s.stOperand 0#3) (s.stOperand 1#3)) s := by
  simp only [List.mem_cons, Prod.mk.injEq, List.not_mem_nil, or_false] at row
  rcases row with ⟨rfl, rfl⟩ | ⟨rfl, rfl⟩
  · exact checked_fprem p hc
  · exact checked_fprem1 p hc

theorem ready_both (h0 : s.stTag 0#3 ≠ .empty) (h1 : s.stTag 1#3 ≠ .empty) (dest : Dest) :
    Ready [s.stOperand 0#3, s.stOperand 1#3] (some dest) s :=
  ready_pair (stEmpty_eq_false h0) (stEmpty_eq_false h1)

theorem not_zero_of_finiteNonzero {v : Ext} (h : isFiniteNonzero v = true) : isZero v = false := by
  by_contra zero
  rw [Stores.isZero_not_finiteNonzero (by simpa using zero)] at h
  cases h

/-- Settles O41: the reduction is exact and the register format holds its result; the other pairs by their classes. -/
theorem partialRemainderDelivers : Obligations.PartialRemainderDelivers := by
  intro p s hc h0 h1 i kind row a b x den tiny
  have checked := checked_prem hc row
  have begins := reported_start s i
  have step (na : isNumber a = true) (nb : isNumber b = true) :
      exec i s = finish i (premStep kind (s.stOperand 0#3) (s.stOperand 1#3) (start s i)) :=
    checked.passes (ready_both h0 h1 st0) (numbers_pair na nb)
  have r : Reported (resultConds den false) s (checkedStart (s.stOperand 0#3) (s.stOperand 1#3) s i) :=
    reported_checkedStart (s.stOperand 0#3) (s.stOperand 1#3) s i
  refine ⟨fun fa fb hd => ?_, fun na nb invalid => ?_, fun own hd => ?_⟩
  · have run := step (isNumber_of_finiteNonzero fa) (isNumber_of_finiteNonzero fb)
    have accepted : (isZero b || isInf a) = false := by rw [not_zero_of_finiteNonzero fb, isInf_finite fa]; rfl
    have numeric : (isInf b || isZero a) = false := by rw [isInf_finite fb, not_zero_of_finiteNonzero fa]; rfl
    have number : premStep kind (s.stOperand 0#3) (s.stOperand 1#3) (start s i) = .ok
        (((checkedStart (s.stOperand 0#3) (s.stOperand 1#3) s i).remainderCodes x).writeRemainder (signOf a) x.r) :=
      (if_neg (Bool.eq_false_iff.1 accepted)).trans
        ((denormalCheck_pair _ hd).trans (if_neg (Bool.eq_false_iff.1 numeric)))
    obtain ⟨pa, la, ka, ka'⟩ := exponent_valOf_bounds fa
    obtain ⟨pb, lb, kb, -⟩ := exponent_valOf_bounds fb
    have grid : -16445 ≤ x.r.k := by rw [k_remainder]; exact le_min ka kb
    have high : exponentOf x.r ≤ 16383 := by
      have log := (Nat.log2_lt pa.ne').2 la
      refine (exponent_remainder_le pa).trans ?_
      rw [exponentOf]
      omega
    rw [number] at run
    obtain ⟨t, run, ran, mem, wrote, flagged, c2, c0, c3, c1⟩ := completes_writeRemainder checked.plain hc
      (reported_remainderCodes r x) run (remainder_fits la pa lb pb) grid fun _ => high
    refine ⟨t, run, ran, mem, wrote, flagged, ?_, fun near => ?_⟩
    · rw [c2, c2_remainderCodes, Bool.eq_iff_iff, Bool.not_eq_true', decide_eq_true_iff, ← Bool.not_eq_true,
        complete_iff, not_lt]
    · obtain ⟨b0, b3, b1⟩ := codes_remainderCodes (checkedStart (s.stOperand 0#3) (s.stOperand 1#3) s i)
        ((complete_iff kind (valOf a) (valOf b)).2 near)
      exact ⟨c0.trans b0, c3.trans b3, c1.trans b1⟩
  · have run := step na nb
    have rejected : (isZero b || isInf a) = true := by simpa using invalid
    have response : premStep kind (s.stOperand 0#3) (s.stOperand 1#3) (start s i) = .ok ((start s i).respond .ia fun u =>
        ((u.setC2 false).setC1 false).setSt 0#3 realIndefinite) := if_pos rejected
    rw [response] at run
    exact checked.plain.responds hc begins run (fun _ => ⟨rfl, rfl, rfl, rfl⟩)
      fun r => ⟨((r.setC2 false).setC1 false).wrote 0#3 _ _, rfl, rfl⟩
  · have na : isNumber a = true := own.elim (fun h => isNumber_of_isZero h.1) fun h => isNumber_of_finiteNonzero h.1
    have nb : isNumber b = true := own.elim (fun h => h.2.elim isNumber_of_finiteNonzero isNumber_of_isInf)
      fun h => isNumber_of_isInf h.2
    have accepted : (isZero b || isInf a) = false := by
      rcases own with ⟨zero, finite | infinite⟩ | ⟨finite, infinite⟩
      · rw [not_zero_of_finiteNonzero finite, Bool.false_or]
        by_contra h
        rw [isZero_of_isInf (by simpa using h)] at zero
        cases zero
      · rw [isZero_of_isInf infinite, Bool.false_or]
        by_contra h
        rw [isZero_of_isInf (by simpa using h)] at zero
        cases zero
      · rw [isZero_of_isInf infinite, isInf_finite finite]; rfl
    have itself : (isInf b || isZero a) = true := by
      rcases own with ⟨zero, -⟩ | ⟨-, infinite⟩
      · rw [zero, Bool.or_true]
      · rw [infinite, Bool.true_or]
    have kept : premStep kind (s.stOperand 0#3) (s.stOperand 1#3) (start s i) = .ok
        (((checkedStart (s.stOperand 0#3) (s.stOperand 1#3) s i).setCodes false false false).setC1 false) :=
      (if_neg (Bool.eq_false_iff.1 accepted)).trans ((denormalCheck_pair _ hd).trans (if_pos itself))
    have run := step na nb
    rw [kept] at run
    obtain ⟨t, run, ran, mem, stack, sw, flagged⟩ :=
      completes_kept checked.plain hc ((r.setCodes false false false).setC1 false) run
    exact ⟨t, run, ran, mem, stack, flagged, by rw [sw]; rfl, by rw [sw]; rfl, by rw [sw]; rfl, by rw [sw]; rfl⟩

/-! ### FRNDINT and FXTRACT (R265, R266) -/

theorem denormalCheck_st0 {go : State → Except Refusal State} (hd : isDenormal (s.st 0#3) = true → s.masked .d = true) :
    denormalCheck [s.stOperand 0#3] go (start s i) = go (afterDenormal (isDenormal (s.st 0#3)) (start s i)) := by
  rw [denormalCheck_masked go (by rw [any_single, (reported_start s i).masked]; exact hd), any_single]
  rfl

/-- Settles O43: numbers are rounded or split, the other operands answered by their classes. -/
theorem roundAndExtractDeliver : Obligations.RoundAndExtractDeliver := by
  intro p s hc full a x rounded
  have numbered (number : isNumber a = true) : exec (.frndint p) s =
      finish (.frndint p) (roundStep (s.stOperand 0#3) (start s (.frndint p))) :=
    (checked_frndint p hc).passes (ready_st0 full st0) (number_st0 number)
  have extracted (number : isNumber a = true) (room : s.stTag 7#3 = .empty) : exec (.fxtract p) s =
      finish (.fxtract p) (extractStep (s.stOperand 0#3) (start s (.fxtract p))) :=
    (checked_fxtract p hc).passes (ready_sources (sources := [0#3]) (by simpa using full) fun _ => room)
      (number_st0 number)
  have rounding := (checked_frndint p hc).plain
  have extracting := (checked_fxtract p hc).plain
  refine ⟨fun finite hd => ⟨?_, fun room => ?_⟩, fun own => ?_, fun room => ⟨fun infinite => ?_, fun zero => ?_⟩⟩
  · have r := reported_afterDenormal (reported_start s (.frndint p)) (isDenormal a)
    have run := numbered (isNumber_of_finiteNonzero finite)
    have numeric : (isZero a || isInf a) = false := by rw [not_zero_of_finiteNonzero finite, isInf_finite finite]; rfl
    rw [roundStep, denormalCheck_st0 hd, show (s.stOperand 0#3).val = a from rfl, numeric, if_neg Bool.false_ne_true,
      r.rc] at run
    have ends := completes_writeTo (d := some st0) rounding hc (reported_result r rounded.inexact rounded.up) run
    rwa [c1_reportInexact (inexact := rounded.inexact) (up := rounded.up) up_of_exact] at ends
  · have r := reported_afterDenormal (reported_start s (.fxtract p)) (isDenormal a)
    have run := extracted (isNumber_of_finiteNonzero finite) room
    rw [extractStep, show (s.stOperand 0#3).val = a from rfl, not_zero_of_finiteNonzero finite,
      if_neg Bool.false_ne_true, denormalCheck_st0 hd, isInf_finite finite, if_neg Bool.false_ne_true] at run
    obtain ⟨ran, mem⟩ := extracting.frame hc run
    exact ⟨_, run, ran, mem, (r.setC1 false).wrotePushed .., rfl,
      ((sameFlags_writePush ..).advance _).flagged (r.setC1 false).flagged⟩
  · have normal : isDenormal a = false := own.elim isDenormal_of_isZero isDenormal_of_isInf
    have run := numbered (own.elim isNumber_of_isZero isNumber_of_isInf)
    have kept : (isZero a || isInf a) = true := by simpa using own
    rw [roundStep, denormalCheck_st0 (by rw [normal]; nofun), show (s.stOperand 0#3).val = a from rfl, if_pos kept] at run
    have r := reported_afterDenormal (reported_start s (.frndint p)) (isDenormal a)
    obtain ⟨t, run, ran, mem, stack, sw, flagged⟩ := completes_kept rounding hc (r.setC1 false) run
    rw [normal] at flagged
    exact ⟨t, run, ran, mem, stack, by rw [sw]; rfl, flagged⟩
  · have normal : isDenormal a = false := isDenormal_of_isInf infinite
    have run := extracted (isNumber_of_isInf infinite) room
    rw [extractStep, show (s.stOperand 0#3).val = a from rfl, isZero_of_isInf infinite, if_neg Bool.false_ne_true,
      denormalCheck_st0 (by rw [normal]; nofun), infinite, if_pos rfl, show isDenormal (s.st 0#3) = false from normal] at run
    have r := (reported_start s (.fxtract p)).setC1 false
    obtain ⟨ran, mem⟩ := extracting.frame hc run
    exact ⟨_, run, ran, mem, r.wrotePushed .., rfl, ((sameFlags_writePush ..).advance _).flagged r.flagged⟩
  · have run := extracted (isNumber_of_isZero zero) room
    rw [extractStep, show (s.stOperand 0#3).val = a from rfl, if_pos zero] at run
    exact extracting.responds hc (reported_start s (.fxtract p)) run (fun _ => ⟨rfl, rfl, rfl, rfl⟩)
      fun r => ⟨(r.setC1 false).wrotePushed .., rfl⟩

end Sys2Proof.Reductions


/-! PROOFS. The compares (R290 to R307) and FXAM (R302): what Compare of R291 reports, and what the relation then writes. -/

namespace Sys2Proof.Compares

open Sys2Proof Sys2Proof.Machine Sys2Proof.DataTransfer Sys2Proof.BasicArithmetic Sys2Proof.Running Sys2Proof.Delivery
open Sys2Proof.Arithmetic Sys2Proof.Fields

variable {s t u : State} {i : Instr} {q : Option FarPtr} {cs : List Cond} {c : Cond} {a b : Operand} {kind : CompareKind}
  {p : List Prefix} {m : MemForm} {j : StIdx} {n pops : Nat} {checkD : Bool} {r : Relation}

/-! ### The pops (R181, R293 to R300) -/

theorem toNat_sub_one : ∀ d : BitVec 3, d ≠ 0#3 → (d - 1#3).toNat + 1 = d.toNat := by decide

theorem top_popN (u : State) (n : Nat) : (u.popN n).sw.top = u.sw.top + BitVec.ofNat 3 n := by
  induction n generalizing u with
  | zero => exact (BitVec.add_zero _).symm
  | succ n ih =>
    rw [State.popN, ih]
    change u.sw.top + 1#3 + BitVec.ofNat 3 n = _
    rw [BitVec.add_assoc, BitVec.add_comm 1#3, BitVec.ofNat_add]

theorem regs_popN (u : State) (n : Nat) : (u.popN n).regs = u.regs := by
  induction n generalizing u with
  | zero => rfl
  | succ n ih => exact ih u.pop

theorem tags_popN (u : State) (n : Nat) (k : BitVec 3) :
    (u.popN n).tags.get k.toFin = if (k - u.sw.top).toNat < n then .empty else u.tags.get k.toFin := by
  induction n generalizing u with
  | zero => rfl
  | succ n ih =>
    have top : u.pop.sw.top = u.sw.top + 1#3 := rfl
    rw [State.popN, ih, tags_pop, top]
    by_cases freed : k = u.sw.top
    · have first : (0#3).toNat < n + 1 := Nat.succ_pos n
      rw [if_pos freed, freed, BitVec.sub_self, if_pos first]
      exact ite_self _
    · have apart : k - u.sw.top ≠ 0#3 := fun zero => freed (by
        have back := congrArg (· + u.sw.top) zero
        simpa using back)
      have next : k - (u.sw.top + 1#3) = k - u.sw.top - 1#3 := by
        rw [BitVec.sub_eq_iff_eq_add, BitVec.add_comm u.sw.top, ← BitVec.add_assoc, BitVec.sub_add_cancel,
          BitVec.sub_add_cancel]
      have count := toNat_sub_one _ apart
      rw [if_neg freed, next]
      exact if_congr (by omega) rfl rfl

/-- The condition codes are not touched by pops. -/
theorem codes_popN (u : State) (n : Nat) : (u.popN n).sw.c3 = u.sw.c3 ∧ (u.popN n).sw.c2 = u.sw.c2 ∧
    (u.popN n).sw.c0 = u.sw.c0 ∧ (u.popN n).sw.c1 = u.sw.c1 := by
  induction n generalizing u with
  | zero => exact ⟨rfl, rfl, rfl, rfl⟩
  | succ n ih => exact ih u.pop

theorem eflags_popN (u : State) (n : Nat) : (u.popN n).eflags = u.eflags := by
  induction n generalizing u with
  | zero => rfl
  | succ n ih => exact ih u.pop

theorem poppedN (h : StackKept s u) (n k : Nat) : PoppedN n s ((u.popN n).advance k) where
  top := (top_popN u n).trans (by rw [h.top])
  regs := (regs_popN u n).trans h.regs
  tags x := (tags_popN u n x).trans (by rw [h.top, h.tags])

/-! ### Compare (R291) -/

/-- What Compare finds invalid, in the words of R291. -/
theorem invalidCompare_eq (kind : CompareKind) (a b : Ext) :
    invalidCompare kind a b = (isUnsupported a || isUnsupported b || invalidNan kind a || invalidNan kind b) := by
  rw [Bool.eq_iff_iff]
  simp only [invalidCompare, invalidNan, isNan, Bool.or_eq_true, Bool.and_eq_true]
  tauto

theorem compareOps_empty (h : (a.empty || b.empty) = true) :
    compareOps a b kind checkD u = signalUnordered u .isUnder := if_pos h

theorem compareOps_invalid (h : (a.empty || b.empty) = false) (invalid : invalidCompare kind a.val b.val = true) :
    compareOps a b kind checkD u = signalUnordered u .ia := by
  rw [invalidCompare_eq] at invalid
  exact (if_neg (Bool.eq_false_iff.1 h)).trans (if_pos invalid)

theorem compareOps_nan (h : (a.empty || b.empty) = false) (valid : invalidCompare kind a.val b.val = false)
    (nan : (isNan a.val || isNan b.val) = true) :
    compareOps a b kind checkD u = { state := u, relation := some .unordered } := by
  rw [invalidCompare_eq] at valid
  exact (if_neg (Bool.eq_false_iff.1 h)).trans ((if_neg (Bool.eq_false_iff.1 valid)).trans (if_pos nan))

/-- What Compare reports of numbers: a denormal operand where it is to be reported, and the relation unless that stops. -/
def numberCompared (reports : Bool) (r : Relation) (u : State) : Compared :=
  if reports then { state := u.signal .d, relation := if u.masked .d then some r else none }
  else { state := u, relation := some r }

theorem numberCompared_masked {reports : Bool} (r : Relation) (h : reports = true → u.masked .d = true) :
    numberCompared reports r u = { state := afterDenormal reports u, relation := some r } := by
  cases reports
  · rfl
  · rw [numberCompared, if_pos rfl, if_pos (h rfl)]; rfl

theorem numberCompared_unmasked (r : Relation) (h : u.masked .d = false) :
    numberCompared true r u = { state := u.signal .d, relation := none } := by
  rw [numberCompared, if_pos rfl, h, if_neg Bool.false_ne_true]

/-- Numbers are compared by value, a denormal operand reported where it is checked. -/
theorem compareOps_numbers (h : (a.empty || b.empty) = false) (na : isNumber a.val = true) (nb : isNumber b.val = true) :
    compareOps a b kind checkD u =
      numberCompared (checkD && (a.denormal || b.denormal)) (cmpExt a.val b.val) u := by
  obtain ⟨ua, na⟩ := isNumber_iff.1 na
  obtain ⟨ub, nb⟩ := isNumber_iff.1 nb
  have valid : (isUnsupported a.val || isUnsupported b.val || invalidNan kind a.val || invalidNan kind b.val) = false := by
    simp only [isNan, Bool.or_eq_false_iff] at na nb
    simp [ua, ub, invalidNan, na, nb]
  have ordered : (isNan a.val || isNan b.val) = false := by rw [na, nb]; rfl
  exact (if_neg (Bool.eq_false_iff.1 h)).trans ((if_neg (Bool.eq_false_iff.1 valid)).trans
    (if_neg (Bool.eq_false_iff.1 ordered)))

/-! ### The compares that report in the status word -/

/-- A compare with `b`, and its pops. -/
structure CompareCC (i : Instr) (q : Option FarPtr) (b : Operand) (kind : CompareKind) (pops : Nat) (s : State) : Prop where
  plain : Plain i q s
  run : exec i s = finish i (.ok ((begun s i).compareCC b kind pops))

theorem compareSingle_clear (hc : s.pending = .clear) (hm : i.memForm = some m) (hr : s.inRange m 4 = true) :
    compareSingle i m pops s = finish i (.ok ((begun s i).compareCC (s.single (s.addr m)) .ordered pops)) :=
  nonControlMem_clear hc hm hr

theorem compareDouble_clear (hc : s.pending = .clear) (hm : i.memForm = some m) (hr : s.inRange m 8 = true) :
    compareDouble i m pops s = finish i (.ok ((begun s i).compareCC (s.double (s.addr m)) .ordered pops)) :=
  nonControlMem_clear hc hm hr

theorem compareInt_clear (hc : s.pending = .clear) (hm : i.memForm = some m) (hr : s.inRange m n = true) :
    compareInt i m n pops s = finish i (.ok ((begun s i).compareCC (s.int (s.addr m) n) .ordered pops)) :=
  nonControlMem_clear hc hm hr

theorem compareReg_clear (hc : s.pending = .clear) (hm : i.memForm = none) :
    compareReg i j kind pops s = finish i (.ok ((begun s i).compareCC (s.stOperand j) kind pops)) :=
  nonControl_clear hc hm

theorem compareCC_row (hc : s.pending = .clear) (row : (i, q, n, b, kind, pops) ∈ statusCompares p m j s)
    (hr : s.inRange m n = true) : CompareCC i q b kind pops s := by
  simp only [statusCompares, List.mem_cons, Prod.mk.injEq, List.not_mem_nil, or_false] at row
  rcases row with ⟨rfl, rfl, rfl, rfl, rfl, rfl⟩ | ⟨rfl, rfl, rfl, rfl, rfl, rfl⟩ | ⟨rfl, rfl, rfl, rfl, rfl, rfl⟩ |
    ⟨rfl, rfl, rfl, rfl, rfl, rfl⟩ | ⟨rfl, rfl, rfl, rfl, rfl, rfl⟩ | ⟨rfl, rfl, rfl, rfl, rfl, rfl⟩ |
    ⟨rfl, rfl, rfl, rfl, rfl, rfl⟩ | ⟨rfl, rfl, rfl, rfl, rfl, rfl⟩ | ⟨rfl, rfl, rfl, rfl, rfl, rfl⟩ |
    ⟨rfl, rfl, rfl, rfl, rfl, rfl⟩ | ⟨rfl, rfl, rfl, rfl, rfl, rfl⟩ | ⟨rfl, rfl, rfl, rfl, rfl, rfl⟩ |
    ⟨rfl, rfl, rfl, rfl, rfl, rfl⟩ | ⟨rfl, rfl, rfl, rfl, rfl, rfl⟩ | ⟨rfl, rfl, rfl, rfl, rfl, rfl⟩
  · exact ⟨⟨rfl, rfl, rfl, rfl, rfl⟩, (compareSingle_clear hc rfl hr : execFcomM32 p m s = _)⟩
  · exact ⟨⟨rfl, rfl, rfl, rfl, rfl⟩, (compareDouble_clear hc rfl hr : execFcomM64 p m s = _)⟩
  · exact ⟨⟨rfl, rfl, rfl, rfl, rfl⟩, (compareReg_clear hc rfl : execFcomSti p j s = _)⟩
  · exact ⟨⟨rfl, rfl, rfl, rfl, rfl⟩, (compareSingle_clear hc rfl hr : execFcompM32 p m s = _)⟩
  · exact ⟨⟨rfl, rfl, rfl, rfl, rfl⟩, (compareDouble_clear hc rfl hr : execFcompM64 p m s = _)⟩
  · exact ⟨⟨rfl, rfl, rfl, rfl, rfl⟩, (compareReg_clear hc rfl : execFcompSti p j s = _)⟩
  · exact ⟨⟨rfl, rfl, rfl, rfl, rfl⟩, (compareReg_clear hc rfl : execFcompp p s = _)⟩
  · exact ⟨⟨rfl, rfl, rfl, rfl, rfl⟩, (compareReg_clear hc rfl : execFucom p j s = _)⟩
  · exact ⟨⟨rfl, rfl, rfl, rfl, rfl⟩, (compareReg_clear hc rfl : execFucomp p j s = _)⟩
  · exact ⟨⟨rfl, rfl, rfl, rfl, rfl⟩, (compareReg_clear hc rfl : execFucompp p s = _)⟩
  · exact ⟨⟨rfl, rfl, rfl, rfl, rfl⟩, (compareInt_clear hc rfl hr : execFicomM16i p m s = _)⟩
  · exact ⟨⟨rfl, rfl, rfl, rfl, rfl⟩, (compareInt_clear hc rfl hr : execFicomM32i p m s = _)⟩
  · exact ⟨⟨rfl, rfl, rfl, rfl, rfl⟩, (compareInt_clear hc rfl hr : execFicompM16i p m s = _)⟩
  · exact ⟨⟨rfl, rfl, rfl, rfl, rfl⟩, (compareInt_clear hc rfl hr : execFicompM32i p m s = _)⟩
  · exact ⟨⟨rfl, rfl, rfl, rfl, rfl⟩, (nonControl_clear hc rfl : execFtst p s = _)⟩

/-- What a compare writes of the relation it found; nothing on Stop. -/
def writeCC (pops : Nat) (u : State) : Option Relation → State
  | none => u
  | some r => (u.setCC r).popN pops

theorem compareCC_eq (h : CompareCC i q b kind pops s) {rel : Option Relation}
    (compared : compareOps (s.stOperand 0#3) b kind true (begun s i) = { state := u, relation := rel }) :
    exec i s = finish i (.ok (writeCC pops u rel)) := by
  have written : (begun s i).compareCC b kind pops =
      writeCC pops (compareOps (s.stOperand 0#3) b kind true (begun s i)).state
        (compareOps (s.stOperand 0#3) b kind true (begun s i)).relation := rfl
  rw [h.run, written, compared]

/-- The codes of R292. -/
theorem codes_setCC (u : State) (r : Relation) :
    (u.setCC r).sw.c3 = (r == .equal || r == .unordered) ∧ (u.setCC r).sw.c2 = (r == .unordered) ∧
      (u.setCC r).sw.c0 = (r == .less || r == .unordered) ∧ (u.setCC r).sw.c1 = false := by
  cases r <;> exact ⟨rfl, rfl, rfl, rfl⟩

theorem reported_setCC (h : Reported cs s u) (r : Relation) : Reported cs s (u.setCC r) := by
  cases r <;> exact (h.setCodes _ _ _).setC1 _

/-- A compare that finds a relation. -/
theorem CompareCC.related (h : CompareCC i q b kind pops s) (hc : s.pending = .clear) (reported : Reported cs s u)
    (compared : compareOps (s.stOperand 0#3) b kind true (begun s i) = { state := u, relation := some r }) :
    Completes i s fun t =>
      Ran i q s t ∧ MemKept s t ∧ PoppedN pops s t ∧ Flagged cs s t ∧ t.sw.c3 = (r == .equal || r == .unordered) ∧
        t.sw.c2 = (r == .unordered) ∧ t.sw.c0 = (r == .less || r == .unordered) ∧ t.sw.c1 = false := by
  have run : exec i s = finish i (.ok ((u.setCC r).popN pops)) := compareCC_eq h compared
  obtain ⟨ran, mem⟩ := h.plain.frame hc run
  have set := reported_setCC reported r
  obtain ⟨p3, p2, p0, p1⟩ := codes_popN (u.setCC r) pops
  obtain ⟨b3, b2, b0, b1⟩ := codes_setCC u r
  exact ⟨_, run, ran, mem, poppedN set.stack pops _, ((sameFlags_popN ..).advance _).flagged set.flagged, p3.trans b3,
    p2.trans b2, p0.trans b0, p1.trans b1⟩

/-- A condition leaves C3, C2 and C0. -/
theorem codes_signal (u : State) (c : Cond) : (u.signal c).sw.c3 = u.sw.c3 ∧ (u.signal c).sw.c2 = u.sw.c2 ∧
    (u.signal c).sw.c0 = u.sw.c0 := by
  rw [State.signal_sw]
  cases c <;> split <;> exact ⟨rfl, rfl, rfl⟩

/-- A compare that stops. -/
theorem CompareCC.stopped (h : CompareCC i q b kind pops s) (hc : s.pending = .clear)
    (compared : compareOps (s.stOperand 0#3) b kind true (begun s i) =
      { state := (begun s i).signal c, relation := none }) :
    Completes i s fun t =>
      Ran i q s t ∧ MemKept s t ∧ StackKept s t ∧ Flagged [c] s t ∧
        t.sw.c3 = s.sw.c3 ∧ t.sw.c2 = s.sw.c2 ∧ t.sw.c0 = s.sw.c0 := by
  obtain ⟨t, run, ran, mem, stack, sw, flagged⟩ :=
    completes_kept h.plain hc ((reported_begun s i).signal c) (compareCC_eq h compared)
  obtain ⟨c3, c2, c0⟩ := codes_signal (begun s i) c
  exact ⟨t, run, ran, mem, stack, flagged, by rw [sw, c3]; rfl, by rw [sw, c2]; rfl, by rw [sw, c0]; rfl⟩

/-- Settles O44: two numbers are compared by value; an unmasked denormal operand stops the compare. -/
theorem compareSetsConditionCodes : Obligations.CompareSetsConditionCodes := by
  intro p m j s hc i q n b kind pops row hr full hb na nb den
  have compares := compareCC_row hc row hr
  have begins := reported_begun s i
  have numbers : compareOps (s.stOperand 0#3) b kind true (begun s i) =
      numberCompared den (cmpExt (s.st 0#3) b.val) (begun s i) :=
    compareOps_numbers (by rw [hb, Bool.or_false]; exact stEmpty_eq_false full) na nb
  refine ⟨fun hd => ?_, fun denormal unmasked => ?_⟩
  · rw [numberCompared_masked _ (by rw [begins.masked]; exact hd)] at numbers
    obtain ⟨t, run, ran, mem, popped, flagged, c3, c2, c0, c1⟩ :=
      compares.related hc (reported_afterDenormal begins den) numbers
    refine ⟨t, run, ran, mem, popped, flagged, c1, fun rel => ?_, fun rel => ?_, fun rel => ?_⟩ <;>
      exact ⟨by rw [c3, rel]; rfl, by rw [c2, rel]; rfl, by rw [c0, rel]; rfl⟩
  · rw [denormal, numberCompared_unmasked _ ((begins.masked .d).trans unmasked)] at numbers
    exact compares.stopped hc numbers

/-! ### The compares that report in EFLAGS (R303 to R307) -/

/-- A compare with ST(j) that reports in EFLAGS, and its pops. -/
structure CompareFlags (i : Instr) (j : StIdx) (kind : CompareKind) (pops : Nat) (s : State) : Prop where
  records : i.keepsPointers = false
  continues : i.replacesState = false
  stores : i.stored s = none
  noOperand : i.memForm = none
  run : exec i s = finish i (.ok ((begun s i).compareEflags (s.stOperand j) kind pops))

theorem compareRegEflags_clear (present : s.params.hasFcomi = true) (hc : s.pending = .clear) (hm : i.memForm = none) :
    compareRegEflags i j kind pops s = finish i (.ok ((begun s i).compareEflags (s.stOperand j) kind pops)) :=
  (if_pos present).trans (nonControl_clear hc hm)

theorem compareFlags_row {pop : Bool} (present : s.params.hasFcomi = true) (hc : s.pending = .clear)
    (row : (i, kind, pop) ∈ eflagsCompares p j) : CompareFlags i j kind (if pop then 1 else 0) s := by
  simp only [eflagsCompares, List.mem_cons, Prod.mk.injEq, List.not_mem_nil, or_false] at row
  rcases row with ⟨rfl, rfl, rfl⟩ | ⟨rfl, rfl, rfl⟩ | ⟨rfl, rfl, rfl⟩ | ⟨rfl, rfl, rfl⟩
  · exact ⟨rfl, rfl, rfl, rfl, (compareRegEflags_clear present hc rfl : execFcomi p j s = _)⟩
  · exact ⟨rfl, rfl, rfl, rfl, (compareRegEflags_clear present hc rfl : execFcomip p j s = _)⟩
  · exact ⟨rfl, rfl, rfl, rfl, (compareRegEflags_clear present hc rfl : execFucomi p j s = _)⟩
  · exact ⟨rfl, rfl, rfl, rfl, (compareRegEflags_clear present hc rfl : execFucomip p j s = _)⟩

/-- What such a compare leaves but for its EFLAGS. -/
theorem CompareFlags.frame (h : CompareFlags i j kind pops s) (hc : s.pending = .clear) (run : exec i s = .next t) :
    Ran i none (s.setEflags t.eflags.zf t.eflags.pf t.eflags.cf) t ∧ MemKept s t := by
  obtain ⟨u, runs, rfl⟩ := runs_of_ended hc (exec_ended i s t h.records h.continues run)
  have kept := runs.kept
  exact ⟨⟨kept.fip, nofun, kept.fop, kept.cw, by rw [State.advance_eip, kept.eip]; rfl,
    ⟨kept.gprs, kept.segs, rfl, kept.ne, kept.mode, kept.code32, kept.ignne, kept.params, kept.event⟩⟩,
    memKept_of_runs h.stores runs⟩

/-- What such a compare writes of the relation it found; nothing on Stop. -/
def writeFlags (pops : Nat) (u : State) : Option Relation → State
  | none => u
  | some r => (u.setRelationFlags r).popN pops

theorem compareEflags_eq (h : CompareFlags i j kind pops s) {rel : Option Relation}
    (compared : compareOps (s.stOperand 0#3) (s.stOperand j) kind s.params.fcomiSignalsD (begun s i) =
      { state := u, relation := rel }) :
    exec i s = finish i (.ok (writeFlags pops u rel)) := by
  have written : (begun s i).compareEflags (s.stOperand j) kind pops =
      writeFlags pops (compareOps (s.stOperand 0#3) (s.stOperand j) kind s.params.fcomiSignalsD (begun s i)).state
        (compareOps (s.stOperand 0#3) (s.stOperand j) kind s.params.fcomiSignalsD (begun s i)).relation := rfl
  rw [h.run, written, compared]

/-- The flags of R303, with C1. -/
theorem eflags_setRelationFlags (u : State) (r : Relation) :
    (u.setRelationFlags r).eflags =
      { zf := r == .equal || r == .unordered, pf := r == .unordered, cf := r == .less || r == .unordered } := by
  cases r <;> rfl

theorem sameFlags_setRelationFlags (u : State) (r : Relation) : SameFlags u (u.setRelationFlags r) := by
  cases r <;> exact ⟨rfl, rfl, rfl, rfl⟩

theorem stack_setRelationFlags (h : StackKept s u) (r : Relation) : StackKept s (u.setRelationFlags r) := by
  cases r <;> exact ⟨h.top, h.regs, h.tags⟩

theorem c1_setRelationFlags (u : State) (r : Relation) : (u.setRelationFlags r).sw.c1 = false := by cases r <;> rfl

theorem popped_of_stack (h : StackKept s u) (n : Nat) : Popped s (u.pop.advance n) := by
  refine ⟨congrArg (· + 1#3) h.top, h.regs, ?_, fun k hk => ?_⟩
  · rw [State.advance_tags, tags_pop, h.top, if_pos rfl]
  · have other : k ≠ u.sw.top := by rw [h.top]; simpa using hk
    rw [State.advance_tags, tags_pop, if_neg other, h.tags]
    exact ⟨congrArg (Vector.get · k.toFin) h.regs, rfl⟩

/-- A compare that finds a relation. -/
theorem CompareFlags.related {pop : Bool} (h : CompareFlags i j kind (if pop then 1 else 0) s) (hc : s.pending = .clear)
    (reported : Reported cs s u)
    (compared : compareOps (s.stOperand 0#3) (s.stOperand j) kind s.params.fcomiSignalsD (begun s i) =
      { state := u, relation := some r }) :
    Completes i s fun t =>
      Ran i none (s.setEflags (r == .equal || r == .unordered) (r == .unordered) (r == .less || r == .unordered)) t ∧
        MemKept s t ∧ (if pop then Popped s t else StackKept s t) ∧ t.sw.c1 = false ∧ Flagged cs s t := by
  have run : exec i s = finish i (.ok ((u.setRelationFlags r).popN (if pop then 1 else 0))) := compareEflags_eq h compared
  obtain ⟨ran, mem⟩ := h.frame hc run
  have set := stack_setRelationFlags reported.stack r
  have flags : ((u.setRelationFlags r).popN (if pop then 1 else 0)).eflags = _ :=
    (eflags_popN ..).trans (eflags_setRelationFlags u r)
  obtain ⟨-, -, -, p1⟩ := codes_popN (u.setRelationFlags r) (if pop then 1 else 0)
  refine ⟨_, run, ?_, mem, ?_, p1.trans (c1_setRelationFlags u r), ?_⟩
  · simp only [State.advance_eflags, flags] at ran
    exact ran
  · cases pop
    · exact ⟨set.top, set.regs, set.tags⟩
    · exact popped_of_stack set _
  · exact ((sameFlags_popN ..).advance _).flagged ((sameFlags_setRelationFlags u r).flagged reported.flagged)

/-- A compare that stops. -/
theorem CompareFlags.stopped (h : CompareFlags i j kind pops s) (hc : s.pending = .clear)
    (compared : compareOps (s.stOperand 0#3) (s.stOperand j) kind s.params.fcomiSignalsD (begun s i) =
      { state := (begun s i).signal c, relation := none }) :
    Completes i s fun t => Ran i none s t ∧ MemKept s t ∧ StackKept s t ∧ Flagged [c] s t := by
  have run : exec i s = finish i (.ok ((begun s i).signal c)) := compareEflags_eq h compared
  have r : Reported [c] s ((begun s i).signal c) := (reported_begun s i).signal c
  obtain ⟨ran, mem⟩ := h.frame hc run
  simp only [State.advance_eflags, r.eflags] at ran
  exact ⟨_, run, ran, mem, r.stackKept _, ((SameFlags.refl _).advance _).flagged r.flagged⟩

theorem cmpExt_ne_unordered (a b : Ext) : cmpExt a b ≠ .unordered := by
  unfold cmpExt
  split
  · split
    · nofun
    · split <;> nofun
  · split
    · split <;> nofun
    · cases compareNum (valOf a) (valOf b) <;> nofun

/-- Settles O45: two numbers are compared by value; a reported denormal operand, unmasked, stops the compare. -/
theorem compareSetsEflags : Obligations.CompareSetsEflags := by
  intro p j s present hc h0 hj na nb reports i kind pop row c
  have compares := compareFlags_row present hc row
  have begins := reported_begun s i
  have full : ((s.stOperand 0#3).empty || (s.stOperand j).empty) = false := by
    rw [Bool.or_eq_false_iff]; exact ⟨stEmpty_eq_false h0, stEmpty_eq_false hj⟩
  have numbers : compareOps (s.stOperand 0#3) (s.stOperand j) kind s.params.fcomiSignalsD (begun s i) =
      numberCompared reports c (begun s i) := compareOps_numbers full na nb
  refine ⟨fun hd => ?_, fun denormal unmasked => ?_⟩
  · rw [numberCompared_masked _ (by rw [begins.masked]; exact hd)] at numbers
    have ordered : (c == .unordered) = false := beq_eq_false_iff_ne.2 (cmpExt_ne_unordered _ _)
    have related := compares.related hc (reported_afterDenormal begins reports) numbers
    rwa [ordered, Bool.or_false, Bool.or_false] at related
  · rw [denormal, numberCompared_unmasked _ ((begins.masked .d).trans unmasked)] at numbers
    exact compares.stopped hc numbers

/-! ### Unordered operands (R182, R291) -/

theorem signalUnordered_masked (masked : u.masked c = true) :
    signalUnordered u c = { state := u.signal c, relation := some .unordered } := by rw [signalUnordered, if_pos masked]

theorem signalUnordered_unmasked (unmasked : ¬ u.masked c = true) :
    signalUnordered u c = { state := u.signal c, relation := none } := by rw [signalUnordered, if_neg unmasked]

/-- A condition that makes the operands unordered. -/
theorem compareOps_condition
    (h : (a.empty || b.empty) = true ∧ c = .isUnder ∨
      (a.empty || b.empty) = false ∧ invalidCompare kind a.val b.val = true ∧ c = .ia) :
    compareOps a b kind checkD u = signalUnordered u c := by
  rcases h with ⟨empty, rfl⟩ | ⟨full, invalid, rfl⟩
  · exact compareOps_empty empty
  · exact compareOps_invalid full invalid

/-- Settles O46: empty and invalid operands signal and are unordered or stop, quiet NaNs are unordered. -/
theorem compareUnordered : Obligations.CompareUnordered := by
  intro p m j s hc
  constructor
  · intro i q n b kind pops row hr a unordered
    refine ⟨fun c cond => ?_, fun full valid nan => ?_⟩
    · have compares := compareCC_row hc row hr
      have begins := reported_begun s i
      have compared : compareOps (s.stOperand 0#3) b kind true (begun s i) = _ := compareOps_condition cond
      by_cases masked : s.masked c = true
      · rw [signalUnordered_masked ((begins.masked c).trans masked)] at compared
        obtain ⟨t, run, ran, mem, popped, flagged, c3, c2, c0, c1⟩ := compares.related hc (begins.signal c) compared
        exact ⟨t, run, ran, mem, flagged, (if_pos masked).mpr ⟨popped, c3, c2, c0, c1⟩⟩
      · rw [signalUnordered_unmasked (by rwa [begins.masked])] at compared
        obtain ⟨t, run, ran, mem, stack, flagged, codes⟩ := compares.stopped hc compared
        exact ⟨t, run, ran, mem, flagged, (if_neg masked).mpr ⟨stack, codes⟩⟩
    · obtain ⟨t, run, ran, mem, popped, flagged, c3, c2, c0, c1⟩ :=
        (compareCC_row hc row hr).related hc (reported_begun s i) (compareOps_nan full valid nan)
      exact ⟨t, run, ran, mem, flagged, popped, c3, c2, c0, c1⟩
  · intro present i kind pop row a b unordered
    refine ⟨fun c cond => ?_, fun full valid nan => ?_⟩
    · have compares := compareFlags_row present hc row
      have begins := reported_begun s i
      have compared : compareOps (s.stOperand 0#3) (s.stOperand j) kind s.params.fcomiSignalsD (begun s i) = _ :=
        compareOps_condition cond
      by_cases masked : s.masked c = true
      · rw [signalUnordered_masked ((begins.masked c).trans masked)] at compared
        obtain ⟨t, run, ran, mem, popped, c1, flagged⟩ := compares.related hc (begins.signal c) compared
        exact ⟨t, run, mem, flagged, (if_pos masked).mpr ⟨ran, popped, c1⟩⟩
      · rw [signalUnordered_unmasked (by rwa [begins.masked])] at compared
        obtain ⟨t, run, ran, mem, stack, flagged⟩ := compares.stopped hc compared
        exact ⟨t, run, mem, flagged, (if_neg masked).mpr ⟨ran, stack⟩⟩
    · obtain ⟨t, run, ran, mem, popped, c1, flagged⟩ :=
        (compareFlags_row present hc row).related hc (reported_begun s i) (compareOps_nan full valid nan)
      exact ⟨t, run, mem, flagged, ran, popped, c1⟩

/-! ### FXAM (R302) -/

/-- The codes of R302. -/
def classCodes (empty : Bool) (v : Ext) : Bool × Bool × Bool :=
  if empty then (true, false, true)
  else if isUnsupported v then (false, false, false)
  else if isNan v then (false, false, true)
  else if isInf v then (false, true, true)
  else if isZero v then (true, false, false)
  else if isDenormal v then (true, true, false)
  else (false, true, false)

theorem examine_eq (u : State) :
    u.examine =
      let codes := classCodes (u.stEmpty 0#3) (u.st 0#3)
      (u.setC1 (signOf (u.st 0#3))).setCodes codes.1 codes.2.1 codes.2.2 := by
  unfold State.examine classCodes
  cases u.stEmpty 0#3
  · cases cls : classOf (u.st 0#3) <;> simp [isUnsupported, isNan, isInf, isZero, isDenormal, cls]
  · rfl

/-- Settles O47: FXAM writes the codes of the class and reports nothing. -/
theorem examineReportsClass : Obligations.ExamineReportsClass := by
  intro p s hc
  have plain : Plain (.fxam p) none s := ⟨rfl, rfl, rfl, rfl, rfl⟩
  have run : exec (.fxam p) s = finish (.fxam p) (.ok (begun s (.fxam p)).examine) := by
    change execFxam p s = _
    exact nonControl_clear hc rfl
  rw [examine_eq] at run
  have begins := reported_begun s (.fxam p)
  obtain ⟨t, run, ran, mem, stack, sw, flagged⟩ :=
    completes_kept plain hc ((begins.setC1 _).setCodes _ _ _) run
  refine ⟨t, run, ran, mem, stack, flagged, by rw [sw]; rfl, ?_⟩
  have codes : (t.sw.c3, t.sw.c2, t.sw.c0) = classCodes (s.stEmpty 0#3) (s.st 0#3) := by rw [sw]; rfl
  rw [codes, classCodes, if_congr (stEmpty_iff s 0#3) rfl rfl]

end Sys2Proof.Compares


/-! PROOFS. FSCALE (R330): the scale is the truncated operand, or so large that every result is beyond the adjusted exponents;
and the delivery of the scaled number. -/

namespace Sys2Proof.Scaling

open Sys2Proof Sys2Proof.Machine Sys2Proof.BasicArithmetic Sys2Proof.Running Sys2Proof.Delivery
open Sys2Proof.Arithmetic Sys2Proof.Fields Sys2Proof.RegisterOps Sys2Proof.Responses Sys2Proof.Stops Sys2Proof.Roots
open Sys2Proof.ExactNumbers Sys2Proof.Reductions

variable {s t u : State} {i : Instr} {q : Option FarPtr} {cs : List Cond} {p : List Prefix}

/-! ### The scale (R330) -/

theorem shiftNat_bounds (n : Nat) (k : Int) :
    (shiftNat n k : ℚ) ≤ n * 2 ^ k ∧ (n : ℚ) * 2 ^ k < shiftNat n k + 1 := by
  unfold shiftNat
  by_cases whole : 0 ≤ k
  · have power : (2 : ℚ) ^ k = ((2 ^ k.toNat : Nat) : ℚ) := by
      rw [Nat.cast_pow, Nat.cast_ofNat, ← zpow_natCast, Int.toNat_of_nonneg whole]
    rw [if_pos whole, power, Nat.shiftLeft_eq, Nat.cast_mul]
    exact ⟨le_rfl, lt_add_one _⟩
  · have power : (2 : ℚ) ^ k = 1 / ((2 ^ (-k).toNat : Nat) : ℚ) := by
      rw [Nat.cast_pow, Nat.cast_ofNat, ← zpow_natCast, Int.toNat_of_nonneg (by omega), zpow_neg, one_div, inv_inv]
    have pos : (0 : ℚ) < (2 ^ (-k).toNat : Nat) := by positivity
    rw [if_neg whole, power, Nat.shiftRight_eq_div_pow, mul_one_div, le_div_iff₀ pos, div_lt_iff₀ pos]
    refine ⟨by exact_mod_cast Nat.div_mul_le_self .., ?_⟩
    have lt := Nat.lt_div_mul_add (a := n) (Nat.two_pow_pos (-k).toNat)
    rw [add_mul, one_mul]
    exact_mod_cast lt

/-- `z` is `v` truncated toward zero. -/
def Truncates (z : Int) (v : ℚ) : Prop :=
  (0 ≤ v ∧ (z : ℚ) ≤ v ∧ v < z + 1) ∨ (v ≤ 0 ∧ (z : ℚ) - 1 < v ∧ v ≤ z)

theorem Truncates.neg {z : Int} {v : ℚ} (h : Truncates z v) : Truncates (-z) (-v) := by
  unfold Truncates
  push_cast
  rcases h with ⟨sign, lo, hi⟩ | ⟨sign, lo, hi⟩
  · exact .inr ⟨by linarith, by linarith, by linarith⟩
  · exact .inl ⟨by linarith, by linarith, by linarith⟩

/-- Of a number that is not negative the truncation is the whole part. -/
theorem Truncates.bounds {z : Int} {v : ℚ} (h : Truncates z v) (nonneg : 0 ≤ v) : (z : ℚ) ≤ v ∧ v < z + 1 := by
  rcases h with ⟨-, lo, hi⟩ | ⟨nonpos, lo, hi⟩
  · exact ⟨lo, hi⟩
  · have zero : v = 0 := le_antisymm nonpos nonneg
    rw [zero] at lo hi ⊢
    have whole : z = 0 := by
      have upper : z < 1 := by exact_mod_cast (by linarith : (z : ℚ) < 1)
      have lower : 0 ≤ z := by exact_mod_cast hi
      omega
    rw [whole]
    exact ⟨le_rfl, by norm_num⟩

/-- The magnitude of the scale. -/
def scaleSize (b : Sys2Proof.Num) : Nat := if 17 ≤ exponentOf b then 2 ^ 17 else shiftNat b.n b.k

theorem scaleOf_eq (b : Sys2Proof.Num) : scaleOf b = if b.neg then -(scaleSize b : Int) else scaleSize b := rfl

/-- The magnitude of the scale is the truncated magnitude, or both are large. -/
theorem scaleSize_truncates {b : Sys2Proof.Num} {z : Int} (small : b.n = 0 → exponentOf b < 17)
    (h : Truncates z (b.n * (2 : ℚ) ^ b.k)) : (scaleSize b : Int) = z ∨ 131072 ≤ z ∧ (scaleSize b : Int) = 131072 := by
  obtain ⟨lo, hi⟩ := h.bounds (by positivity)
  unfold scaleSize
  by_cases large : 17 ≤ exponentOf b
  · right
    have nonzero : b.n ≠ 0 := fun zero => absurd large (not_le.2 (small zero))
    have power : (2 : ℚ) ^ (17 : Int) ≤ b.n * 2 ^ b.k := calc
      (2 : ℚ) ^ (17 : Int) ≤ 2 ^ exponentOf b := zpow_le_zpow_right₀ (by norm_num) large
      _ = 2 ^ b.n.log2 * 2 ^ b.k := by rw [exponentOf, zpow_add₀ two_ne_zero, zpow_natCast]
      _ ≤ b.n * 2 ^ b.k := by
        refine mul_le_mul_of_nonneg_right ?_ (by positivity)
        exact_mod_cast Nat.log2_self_le nonzero
    have beyond : (131072 : ℚ) < z + 1 := by norm_num at power; linarith
    have : (131072 : Int) < z + 1 := by exact_mod_cast beyond
    rw [if_pos large]
    omega
  · left
    obtain ⟨lo', hi'⟩ := shiftNat_bounds b.n b.k
    have below : (shiftNat b.n b.k : Int) < z + 1 := by exact_mod_cast lo'.trans_lt hi
    have above : z < shiftNat b.n b.k + 1 := by exact_mod_cast lo.trans_lt hi'
    rw [if_neg large]
    omega

/-- A scale and a truncation that are equal, or both beyond every exponent on the same side. -/
def ScaleOf (scale z : Int) : Prop :=
  scale = z ∨ (131072 ≤ scale ∧ 131072 ≤ z) ∨ (scale ≤ -131072 ∧ z ≤ -131072)

theorem scaleOf_truncates {v : Ext} {z : Int} (finite : isFiniteNonzero v = true ∨ isZero v = true)
    (h : Truncates z (ratOf v)) : ScaleOf (scaleOf (valOf v)) z := by
  have small : (valOf v).n = 0 → exponentOf (valOf v) < 17 := fun n => by
    rcases finite with finite | zero
    · exact absurd n (isFiniteNonzero_value finite).1.ne'
    · rw [exponentOf_valOf, (isZero_iff.1 zero).1, (isZero_iff.1 zero).2]; decide
  rw [scaleOf_eq]
  cases sign : (valOf v).neg
  · have value : ratOf v = (valOf v).n * 2 ^ (valOf v).k := by simp [ratOf, Sys2Proof.Num.toRat, sign]
    rw [value] at h
    rcases scaleSize_truncates small h with eq | ⟨large, size⟩
    · exact .inl eq
    · exact .inr (.inl ⟨size.ge, large⟩)
  · have value : -ratOf v = (valOf v).n * 2 ^ (valOf v).k := by simp [ratOf, Sys2Proof.Num.toRat, sign]
    have h := h.neg
    rw [value] at h
    rcases scaleSize_truncates small h with eq | ⟨large, size⟩
    · exact .inl (by rw [if_pos rfl, eq, neg_neg])
    · exact .inr (.inr ⟨by rw [if_pos rfl, size], by omega⟩)

/-! ### The delivery of a scaled number (R330) -/

/-- A value below half a spacing rounds as every other one. -/
theorem roundGrid_below_half {x : Sys2Proof.Num} (nonzero : x.n ≠ 0) {g : Int} (rc : RoundMode)
    (below : exponentOf x < g - 1) :
    roundGrid (exactNum x) g rc =
      { n := if roundsAway rc x.neg { lo := 0, half := .lt, exact := false } then 1 else 0, q := g, inexact := true,
        up := roundsAway rc x.neg { lo := 0, half := .lt, exact := false } } := by
  rw [exponentOf] at below
  have spacing : (1 : Nat) <<< (g - x.k).toNat = 2 ^ (g - x.k).toNat := by rw [Nat.shiftLeft_eq, Nat.one_mul]
  have half : 2 * x.n < 2 ^ (g - x.k).toNat := calc
    2 * x.n < 2 * 2 ^ (x.n.log2 + 1) := Nat.mul_lt_mul_of_pos_left Nat.lt_log2_self two_pos
    _ = 2 ^ (x.n.log2 + 2) := by rw [pow_succ _ (x.n.log2 + 1), mul_comm]
    _ ≤ 2 ^ (g - x.k).toNat := Nat.pow_le_pow_right two_pos (by omega)
  have less : x.n < 2 ^ (g - x.k).toNat := by omega
  have cut : (Mag.ratio x.n 1 x.k).cut g = { lo := 0, half := .lt, exact := false } := by
    simp only [Mag.cut, spacing, show (x.k - g).toNat = 0 by omega, Nat.shiftLeft_zero, Nat.mod_eq_of_lt less,
      Nat.div_eq_of_lt less, compare_lt_iff_lt.2 half, beq_eq_false_iff_ne.2 nonzero]
  unfold roundGrid
  simp only [exactNum, cut, Bool.false_eq_true, if_false]
  split_ifs with away
  · rw [away]
  · rw [Bool.eq_false_of_not_eq_true away]

/-- Above the exponent range, an unmasked overflow moves its exponent. -/
theorem deliverReg_great {x : Sys2Proof.Num} (nonzero : x.n ≠ 0) (fits : Fits x.n) (great : 16384 ≤ exponentOf x)
    (unmasked : u.masked .o = false) :
    deliverReg 64 (exactNum x) u = ((u.signal .o).setC1 false, extOfNum { x with k := x.k - 24576 }) := by
  have high : fmtExt.emax < (roundP (exactNum x) 64 (rcOf u.cw)).exponent := by
    rw [exponent_roundP_exact nonzero fits]; exact lt_of_lt_of_le (by decide) great
  have normal : -16382 ≤ (x.n.log2 : Int) + (x.k - 24576) := by rw [exponentOf] at great; omega
  rw [deliverReg, deliver_overflow_reg high unmasked, exactNum, roundP_exact nonzero fits,
    ← extOfNum_normalized nonzero normal]
  refine congrArg _ (congrArg (fun k => extOfNum { neg := x.neg, n := normalized x.n, k := k }) ?_)
  change (x.n.log2 : Int) + x.k - 63 - 24576 = x.n.log2 + (x.k - 24576) - 63
  omega

/-- What a scaled number leaves: its value, C1 and the conditions it adds. -/
def Scaled (x : Sys2Proof.Num) (u : State) (v : Ext) (c1 : Bool) (cs : List Cond) : Prop :=
  ∃ w : State, u.deliverScaled x = w.setSt 0#3 v ∧ w.sw.c1 = c1 ∧
    ∀ {s : State} {ds : List Cond}, Reported ds s u → Reported (ds ++ cs) s w

variable {x : Sys2Proof.Num}

theorem deliverScaled_reg (overflow : 40960 ≤ exponentOf x → u.masked .o = true)
    (underflow : exponentOf x < -40958 → u.masked .u = true) :
    u.deliverScaled x = (deliverReg 64 (exactNum x) u).1.setSt 0#3 (deliverReg 64 (exactNum x) u).2 := by
  have notOver : ¬ (16384 + 24576 ≤ exponentOf x ∧ u.masked .o = false) := fun ⟨great, unmasked⟩ =>
    absurd ((overflow great).symm.trans unmasked) (by decide)
  have notUnder : ¬ (exponentOf x < -16382 - 24576 ∧ u.masked .u = false) := fun ⟨tiny, unmasked⟩ =>
    absurd ((underflow tiny).symm.trans unmasked) (by decide)
  rw [State.deliverScaled]
  exact (if_neg notOver).trans (if_neg notUnder)

theorem scaled_inside (nonzero : x.n ≠ 0) (fits : Fits x.n) (low : -16382 ≤ exponentOf x)
    (high : exponentOf x ≤ 16383) : Scaled x u (extOfNum x) false [] := by
  have delivered := deliverScaled_reg (x := x) (u := u) (by omega) (by omega)
  rw [deliverReg_inside nonzero fits low high] at delivered
  exact ⟨_, delivered, rfl, fun r => by rw [List.append_nil]; exact r.setC1 false⟩

theorem scaled_overflow_masked (nonzero : x.n ≠ 0) (fits : Fits x.n) (great : 16384 ≤ exponentOf x)
    (masked : u.masked .o = true) :
    Scaled x u (extOfReal (overflowValue fmtExt (rcOf u.cw) x.neg)) (overflowValue fmtExt (rcOf u.cw) x.neg).isInfinite
      [.o, .p] := by
  have high : fmtExt.emax < (roundP (exactNum x) 64 (rcOf u.cw)).exponent := by
    rw [exponent_roundP_exact nonzero fits]; exact lt_of_lt_of_le (by decide) great
  have delivered := deliverScaled_reg (x := x) (u := u) (fun _ => masked) (by omega)
  rw [deliverReg, deliver_overflow_masked high masked] at delivered
  exact ⟨_, delivered, rfl, fun r => reported_overflowMasked r _⟩

theorem scaled_overflow_unmasked (nonzero : x.n ≠ 0) (fits : Fits x.n) (great : 16384 ≤ exponentOf x)
    (unmasked : u.masked .o = false) :
    Scaled x u (if exponentOf x < 40960 then extOfNum { x with k := x.k - 24576 } else infinity x.neg) false [.o] := by
  by_cases beyond : exponentOf x < 40960
  · have delivered := deliverScaled_reg (x := x) (u := u) (by omega) (by omega)
    rw [deliverReg_great nonzero fits great unmasked] at delivered
    rw [if_pos beyond]
    exact ⟨_, delivered, rfl, fun r => (r.signal .o).setC1 false⟩
  · rw [if_neg beyond]
    refine ⟨(u.signal .o).setC1 false, ?_, rfl, fun r => (r.signal .o).setC1 false⟩
    rw [State.deliverScaled]
    exact if_pos ⟨not_lt.1 beyond, unmasked⟩

theorem scaled_underflow_masked (nonzero : x.n ≠ 0) (fits : Fits x.n) (tiny : exponentOf x < -16382)
    (masked : u.masked .u = true) :
    let r := roundGrid (exactNum x) (-16445) (rcOf u.cw)
    Scaled x u (extOfNum { neg := x.neg, n := r.n, k := r.q }) r.up (if r.inexact then [.u, .p] else []) := by
  intro r
  have low : (roundP (exactNum x) 64 (rcOf u.cw)).exponent < fmtExt.emin := by
    rw [exponent_roundP_exact nonzero fits]; exact tiny
  have delivered := deliverScaled_reg (x := x) (u := u) (by omega) fun _ => masked
  rw [deliverReg, deliver_underflow_masked (by decide) low masked] at delivered
  refine ⟨_, delivered, ?_, fun h => reported_underflowMasked h r⟩
  exact c1_reportInexact (inexact := r.inexact) (up := r.up) up_of_exact _

theorem scaled_underflow_unmasked (nonzero : x.n ≠ 0) (fits : Fits x.n) (tiny : exponentOf x < -16382)
    (unmasked : u.masked .u = false) :
    Scaled x u (if -40958 ≤ exponentOf x then extOfNum { x with k := x.k + 24576 } else zero x.neg) false [.u] := by
  by_cases near : -40958 ≤ exponentOf x
  · have delivered := deliverScaled_reg (x := x) (u := u) (by omega) (by omega)
    rw [deliverReg_tiny nonzero fits tiny near unmasked] at delivered
    rw [if_pos near]
    exact ⟨_, delivered, rfl, fun r => (r.signal .u).setC1 false⟩
  · rw [if_neg near]
    refine ⟨(u.signal .u).setC1 false, ?_, rfl, fun r => (r.signal .u).setC1 false⟩
    have notOver : ¬ (16384 + 24576 ≤ exponentOf x ∧ u.masked .o = false) := fun ⟨great, _⟩ => by omega
    rw [State.deliverScaled]
    exact (if_neg notOver).trans (if_pos ⟨not_le.1 near, unmasked⟩)

/-! ### FSCALE -/

/-- The number whose exponent has grown by `z`. -/
def shifted (a : Ext) (z : Int) : Sys2Proof.Num := { valOf a with k := (valOf a).k + z }

theorem exponentOf_shifted (a : Ext) (z : Int) : exponentOf (shifted a z) = exponentOf (valOf a) + z := by
  rw [exponentOf, exponentOf, shifted, add_assoc]

theorem finite_exponent_bounds {a : Ext} (h : isFiniteNonzero a = true) :
    -16445 ≤ exponentOf (valOf a) ∧ exponentOf (valOf a) ≤ 16383 := by
  obtain ⟨pos, lt, lo, hi⟩ := exponent_valOf_bounds h
  have log := (Nat.log2_lt pos.ne').2 lt
  rw [exponentOf]
  omega

/-- Scales beyond every exponent on the same side give the same results. -/
theorem scaleOf_cases {a : Ext} {scale z : Int} (h : isFiniteNonzero a = true) (hs : ScaleOf scale z) :
    scale = z ∨ (40960 ≤ exponentOf (shifted a scale) ∧ 40960 ≤ exponentOf (shifted a z)) ∨
      (exponentOf (shifted a scale) < -40958 ∧ exponentOf (shifted a z) < -40958) := by
  obtain ⟨lo, hi⟩ := finite_exponent_bounds h
  simp only [exponentOf_shifted]
  rcases hs with eq | ⟨large, large'⟩ | ⟨small, small'⟩
  · exact .inl eq
  · exact .inr (.inl ⟨by omega, by omega⟩)
  · exact .inr (.inr ⟨by omega, by omega⟩)

/-- A normal number scaled within the format keeps its significand. -/
theorem extOfNum_shifted {a : Ext} {z : Int} (normal : classOf a = .normal) (low : 1 ≤ ((expOf a).toNat : Int) + z)
    (high : ((expOf a).toNat : Int) + z ≤ 32766) :
    extOfNum (shifted a z) = mkExt (signOf a) (BitVec.ofInt 15 (((expOf a).toNat : Int) + z)) (sigOf a) ∧
      -16382 ≤ exponentOf (shifted a z) ∧ exponentOf (shifted a z) ≤ 16383 := by
  obtain ⟨positive, -, integer⟩ := classOf_normal_iff.1 normal
  have log : (sigOf a).toNat.log2 = 63 := by
    have nonzero : (sigOf a).toNat ≠ 0 := by omega
    exact (Nat.log2_eq_iff nonzero).2 ⟨integer, (sigOf a).isLt⟩
  have exponent : ((sigOf a).toNat.log2 : Int) + (shifted a z).k = (expOf a).toNat + z - 16383 := by
    rw [log, shifted]
    change (63 : Nat) + ((max (expOf a).toNat 1 : Nat) - (16446 : Int) + z) = _
    omega
  have range : exponentOf (shifted a z) = (expOf a).toNat + z - 16383 := exponent
  refine ⟨?_, by omega, by omega⟩
  have encoded : encodeFinite fmtExt (shifted a z).n (shifted a z).k =
      ((((expOf a).toNat : Int) + z).toNat, (sigOf a).toNat) := by
    change encodeFinite fmtExt (sigOf a).toNat (shifted a z).k = _
    unfold encodeFinite
    dsimp only
    rw [exponent, if_neg (by omega), if_pos (by change -16382 ≤ _; omega), log]
    refine Prod.ext ?_ ?_
    · change ((expOf a).toNat + z - 16383 + 16383).toNat = _
      rw [Int.sub_add_cancel]
    · rfl
  have field : BitVec.ofNat 15 (((expOf a).toNat : Int) + z).toNat = BitVec.ofInt 15 (((expOf a).toNat : Int) + z) := by
    rw [← BitVec.ofInt_natCast, Int.toNat_of_nonneg (by omega)]
  rw [extOfNum, encoded, field, BitVec.ofNat_toNat, BitVec.setWidth_eq]
  rfl

/-- FSCALE once its operands are neither rejected nor stop it. -/
def scaleRest (a b : Ext) (u : State) : State :=
  if isInf a || isZero a then u.setC1 false
  else if isInf b then u.exactDest st0 (if signOf b then zero (signOf a) else infinity (signOf a))
  else u.deliverScaled (shifted a (scaleOf (valOf b)))

theorem scaleStep_rest (hd : (isDenormal (s.st 0#3) || isDenormal (s.st 1#3)) = true → s.masked .d = true)
    (accepted : ((isZero (s.st 0#3) && s.st 1#3 == infinity false) || (isInf (s.st 0#3) && s.st 1#3 == infinity true)) =
      false) :
    scaleStep (s.stOperand 0#3) (s.stOperand 1#3) (start s i) =
      .ok (scaleRest (s.st 0#3) (s.st 1#3) (checkedStart (s.stOperand 0#3) (s.stOperand 1#3) s i)) := by
  rw [← scaleInvalid_eq] at accepted
  refine (if_neg (Bool.eq_false_iff.1 accepted)).trans ((denormalCheck_pair _ hd).trans ?_)
  unfold scaleRest
  by_cases own : (isInf (s.st 0#3) || isZero (s.st 0#3)) = true
  · rw [if_pos own]
    exact if_pos own
  · rw [if_neg own]
    refine (if_neg own).trans ?_
    by_cases infinite : isInf (s.st 1#3) = true
    · rw [if_pos infinite]
      exact if_pos infinite
    · rw [if_neg infinite]
      exact if_neg infinite

/-- Settles O52: the scaled number is delivered, and beyond every exponent all scales act alike. -/
theorem scaleAddsExponent : Obligations.ScaleAddsExponent := by
  intro p s hc h0 h1 a b den writes
  have checked := checked_fscale (s := s) p hc
  have plain := checked.plain
  have begins := reported_start s (.fscale p)
  have stepped (na : isNumber a = true) (nb : isNumber b = true) : exec (.fscale p) s =
      finish (.fscale p) (scaleStep (s.stOperand 0#3) (s.stOperand 1#3) (start s (.fscale p))) :=
    checked.passes (ready_both h0 h1 st0) (numbers_pair na nb)
  have r : Reported (resultConds den false) s (checkedStart (s.stOperand 0#3) (s.stOperand 1#3) s (.fscale p)) :=
    reported_checkedStart (s.stOperand 0#3) (s.stOperand 1#3) s (.fscale p)
  have ends {v : Ext} {c1 : Bool} {cs : List Cond} {w : State}
      (run : exec (.fscale p) s = finish (.fscale p) (.ok (w.setSt 0#3 v))) (bit : w.sw.c1 = c1)
      (reported : Reported (resultConds den false ++ cs) s w) : writes v c1 cs := by
    have ends := completes_writeTo (d := some st0) plain hc reported run
    rw [bit] at ends
    exact ends
  have finiteRest (hd : den = true → s.masked .d = true) (finite : isFiniteNonzero a = true) (nb : isNumber b = true) :
      exec (.fscale p) s = finish (.fscale p) (.ok (if isInf b then
        (checkedStart (s.stOperand 0#3) (s.stOperand 1#3) s (.fscale p)).exactDest st0
          (if signOf b then zero (signOf a) else infinity (signOf a))
        else (checkedStart (s.stOperand 0#3) (s.stOperand 1#3) s (.fscale p)).deliverScaled
          (shifted a (scaleOf (valOf b))))) := by
    have numeric : (isInf a || isZero a) = false := by rw [isInf_finite finite, not_zero_of_finiteNonzero finite]; rfl
    have accepted : ((isZero a && b == infinity false) || (isInf a && b == infinity true)) = false := by
      rw [isInf_finite finite, not_zero_of_finiteNonzero finite]; rfl
    rw [stepped (isNumber_of_finiteNonzero finite) nb, scaleStep_rest hd accepted, scaleRest,
      if_neg (Bool.eq_false_iff.1 numeric)]
  refine ⟨fun hd finite => ⟨fun source z truncates => ?_, fun infinite => ?_⟩, fun nb own hd => ?_, fun invalid => ?_⟩
  · have nb : isNumber b = true := source.elim isNumber_of_finiteNonzero isNumber_of_isZero
    have bounded : isInf b = false := source.elim isInf_finite fun zero => by
      by_contra h
      rw [isZero_of_isInf (by simpa using h)] at zero
      cases zero
    obtain ⟨pos, small, -, -⟩ := exponent_valOf_bounds finite
    have scales := scaleOf_cases finite (scaleOf_truncates source truncates)
    have run := finiteRest hd finite nb
    rw [bounded, if_neg Bool.false_ne_true] at run
    generalize scaleOf (valOf b) = scale at scales run
    have written {v : Ext} {c1 : Bool} {cs : List Cond}
        (h : Scaled (shifted a scale) (checkedStart (s.stOperand 0#3) (s.stOperand 1#3) s (.fscale p)) v c1 cs) :
        writes v c1 cs := by
      obtain ⟨w, delivered, bit, reported⟩ := h
      rw [delivered] at run
      exact ends run bit (reported r)
    have nonzero : (shifted a scale).n ≠ 0 := pos.ne'
    have fits : Fits (shifted a scale).n := fits_of_lt small
    intro x e rounded largest
    have inside (low : -16382 ≤ e) (high : e ≤ 16383) : writes (extOfNum x) false [] := by
      rcases scales with rfl | ⟨-, great⟩ | ⟨-, tiny⟩
      · exact written (scaled_inside nonzero fits low high)
      · exact absurd (great.trans high) (by decide)
      · exact absurd (low.trans tiny.le) (by decide)
    refine ⟨inside, fun normal low high => ?_, fun great => ?_, fun tiny => ?_⟩
    · obtain ⟨encoded, low, high⟩ := extOfNum_shifted normal low high
      rw [← encoded]
      exact inside low high
    · have great' : 16384 ≤ exponentOf (shifted a scale) := by
        rcases scales with rfl | ⟨above, -⟩ | ⟨-, below⟩
        · exact great
        · exact le_trans (by decide) above
        · exact absurd (great.trans below.le) (by decide)
      by_cases masked : s.masked .o = true
      · rw [if_pos masked]
        have scaled := scaled_overflow_masked nonzero fits great' ((r.masked .o).trans masked)
        rw [r.rc] at scaled
        exact written scaled
      · rw [if_neg masked]
        have scaled := scaled_overflow_unmasked nonzero fits great'
          ((r.masked .o).trans (Bool.eq_false_of_not_eq_true masked))
        rcases scales with rfl | ⟨above, above'⟩ | ⟨-, below⟩
        · exact written scaled
        · rw [if_neg (not_lt.2 above)] at scaled
          rw [if_neg (show ¬ e < 40960 from not_lt.2 above')]
          exact written scaled
        · exact absurd (great.trans below.le) (by decide)
    · have tiny' : exponentOf (shifted a scale) < -16382 := by
        rcases scales with rfl | ⟨-, above⟩ | ⟨below, -⟩
        · exact tiny
        · exact absurd (above.trans tiny.le) (by decide)
        · exact below.trans (by decide)
      by_cases masked : s.masked .u = true
      · rw [if_pos masked]
        have scaled := scaled_underflow_masked nonzero fits tiny' ((r.masked .u).trans masked)
        rw [r.rc] at scaled
        have same : roundGrid (exactNum (shifted a scale)) (-16445) (rcOf s.cw) = rounded := by
          rcases scales with rfl | ⟨-, above⟩ | ⟨below, below'⟩
          · rfl
          · exact absurd (above.trans tiny.le) (by decide)
          · exact (roundGrid_below_half nonzero _ (below.trans (by decide))).trans
              (roundGrid_below_half (x := x) nonzero _ (below'.trans (by decide))).symm
        rw [same] at scaled
        exact written scaled
      · rw [if_neg masked]
        have scaled := scaled_underflow_unmasked nonzero fits tiny'
          ((r.masked .u).trans (Bool.eq_false_of_not_eq_true masked))
        rcases scales with rfl | ⟨-, above⟩ | ⟨below, below'⟩
        · exact written scaled
        · exact absurd (above.trans tiny.le) (by decide)
        · rw [if_neg (not_le.2 below)] at scaled
          rw [if_neg (show ¬ -40958 ≤ e from not_le.2 below')]
          exact written scaled
  · have run := finiteRest hd finite (isNumber_of_isInf infinite)
    rw [infinite, if_pos rfl] at run
    exact ends (cs := []) run rfl (by rw [List.append_nil]; exact r.setC1 false)
  · have na : isNumber a = true := own.elim (fun h => isNumber_of_isZero h.1) fun h => isNumber_of_isInf h.1
    have kept : (isInf a || isZero a) = true := by
      rcases own with ⟨zero, -⟩ | ⟨infinite, -⟩
      · rw [zero, Bool.or_true]
      · rw [infinite, Bool.true_or]
    have normal : isDenormal a = false := own.elim (fun h => isDenormal_of_isZero h.1) fun h => isDenormal_of_isInf h.1
    have accepted : ((isZero a && b == infinity false) || (isInf a && b == infinity true)) = false := by
      rcases own with ⟨zero, other⟩ | ⟨infinite, other⟩
      · have finite : isInf a = false := by
          by_contra h
          rw [isZero_of_isInf (by simpa using h)] at zero
          cases zero
        rw [finite, beq_eq_false_iff_ne.2 other, Bool.and_false]; rfl
      · rw [isZero_of_isInf infinite, beq_eq_false_iff_ne.2 other, Bool.and_false]; rfl
    have only : den = isDenormal b := by rw [show den = (isDenormal a || isDenormal b) from rfl, normal, Bool.false_or]
    have run := stepped na nb
    rw [scaleStep_rest (by rw [normal, Bool.false_or]; exact hd) accepted, scaleRest, if_pos kept] at run
    obtain ⟨t, run, ran, mem, stack, sw, flagged⟩ := completes_kept plain hc (r.setC1 false) run
    rw [only] at flagged
    exact ⟨t, run, ran, mem, stack, by rw [sw]; rfl, flagged⟩
  · have na : isNumber a = true := invalid.elim (fun h => isNumber_of_isZero h.1) fun h => isNumber_of_isInf h.1
    have nb : isNumber b = true := by
      rcases invalid with ⟨-, eq⟩ | ⟨-, eq⟩ <;> rw [eq] <;> rfl
    have rejected : ((isZero a && b == infinity false) || (isInf a && b == infinity true)) = true := by
      rcases invalid with ⟨zero, eq⟩ | ⟨infinite, eq⟩
      · rw [zero, eq]; rfl
      · rw [infinite, eq]; exact Bool.or_true _
    rw [← scaleInvalid_eq] at rejected
    have run := stepped na nb
    have response : scaleStep (s.stOperand 0#3) (s.stOperand 1#3) (start s (.fscale p)) =
      .ok ((start s (.fscale p)).invalidDest st0) := if_pos rejected
    rw [response] at run
    exact responds_writeTo (d := some st0) plain hc begins run

end Sys2Proof.Scaling


/-! PROOFS. Encodings and their values (R132 to R154, R164 to R167): the register format, the operand conversions, the
encodings a store writes, and the NaN of two operands. -/

namespace Sys2Proof.Values

open Sys2Proof Sys2Proof.Machine Sys2Proof.FormatsNumerics Sys2Proof.Arithmetic Sys2Proof.Fields Sys2Proof.Loads
open Sys2Proof.ExactNumbers

variable {n m : Nat} {k e : Int} {neg : Bool} {x : Sys2Proof.Num} {v : Ext}

/-! ### Shifts that lose nothing -/

theorem shiftNat_value {d : Int} (h : 0 ≤ d ∨ 2 ^ (-d).toNat ∣ n) : (shiftNat n d : ℚ) = n * 2 ^ d := by
  unfold shiftNat
  by_cases left : 0 ≤ d
  · rw [if_pos left, Nat.shiftLeft_eq, Nat.cast_mul, Nat.cast_pow, Nat.cast_ofNat, ← zpow_natCast,
      Int.toNat_of_nonneg left]
  · obtain ⟨c, rfl⟩ := h.resolve_left left
    have power : (2 : ℚ) ^ (-d).toNat * 2 ^ d = 1 := by
      rw [← zpow_natCast, Int.toNat_of_nonneg (by omega), ← zpow_add₀ two_ne_zero, neg_add_cancel, zpow_zero]
    rw [if_neg left, Nat.shiftRight_eq_div_pow, Nat.mul_div_cancel_left _ (Nat.two_pow_pos _), Nat.cast_mul, Nat.cast_pow,
      Nat.cast_ofNat, mul_right_comm, power, one_mul]

theorem normalized_value (fits : Fits n) : (normalized n : ℚ) = n * 2 ^ (63 - (n.log2 : Int)) := by
  refine shiftNat_value ?_
  by_cases short : n.log2 ≤ 63
  · exact .inl (by omega)
  · right
    rw [show (-(63 - (n.log2 : Int))).toNat = n.log2 + 1 - 64 by omega]
    exact fits

/-! ### The register format (R135) -/

@[simp] theorem valOf_mkExt (s : Bool) (exp : BitVec 15) (sig : BitVec 64) :
    valOf (mkExt s exp sig) = { neg := s, n := sig.toNat, k := (max exp.toNat 1 : Nat) - 16446 } := by
  rw [valOf, signOf_mkExt, expOf_mkExt, sigOf_mkExt]

theorem lt_of_log2 {b : Nat} (h : n.log2 < b) : n < 2 ^ b := by
  by_cases zero : n = 0
  · rw [zero]; positivity
  · exact (Nat.log2_lt zero).1 h

/-- A number in the normal range is encoded with 64 significant bits. -/
theorem valOf_extOfNum_normal (nonzero : x.n ≠ 0) (low : -16382 ≤ exponentOf x) (high : exponentOf x ≤ 16383) :
    valOf (extOfNum x) = { neg := x.neg, n := normalized x.n, k := exponentOf x - 63 } := by
  have encoded : encodeFinite fmtExt x.n x.k = ((exponentOf x + 16383).toNat, normalized x.n) := by
    unfold encodeFinite
    dsimp only
    rw [if_neg nonzero]
    exact if_pos low
  have small : normalized x.n < 2 ^ 64 := lt_of_log2 (by rw [log2_normalized nonzero]; decide)
  rw [extOfNum, encoded, valOf_mkExt, BitVec.toNat_ofNat, BitVec.toNat_ofNat, Nat.mod_eq_of_lt small,
    Nat.mod_eq_of_lt (by omega : (exponentOf x + 16383).toNat < 2 ^ 15)]
  congr 1
  omega

/-- A number below it is encoded on the denormal grid. -/
theorem valOf_extOfNum_tiny (tiny : x.n = 0 ∨ exponentOf x < -16382) (grid : -16445 ≤ x.k) :
    valOf (extOfNum x) = { neg := x.neg, n := x.n <<< (x.k - -16445).toNat, k := -16445 } := by
  have encoded : encodeFinite fmtExt x.n x.k = (0, x.n <<< (x.k - -16445).toNat) := by
    unfold encodeFinite
    dsimp only
    by_cases zero : x.n = 0
    · rw [if_pos zero, zero, Nat.zero_shiftLeft]
    · rw [if_neg zero]
      refine (if_neg (not_le.2 (tiny.resolve_left zero))).trans (Prod.ext rfl ?_)
      change shiftNat x.n (x.k - -16382 + 64 - 1) = _
      rw [shiftNat, if_pos (by omega), show x.k - -16382 + 64 - 1 = x.k - -16445 by omega]
  have small : x.n <<< (x.k - -16445).toNat < 2 ^ 64 := by
    by_cases zero : x.n = 0
    · rw [zero, Nat.zero_shiftLeft]; decide
    · refine lt_of_log2 ?_
      have tiny := tiny.resolve_left zero
      rw [exponentOf] at tiny
      rw [log2_shiftLeft zero]
      omega
  rw [extOfNum, encoded, valOf_mkExt, BitVec.toNat_ofNat, Nat.mod_eq_of_lt small]
  rfl

/-- The encoding of a number that the register format holds has its value. -/
theorem ratOf_extOfNum (fits : Fits x.n) (grid : -16445 ≤ x.k) (high : exponentOf x ≤ 16383) :
    ratOf (extOfNum x) = x.toRat := by
  by_cases tiny : x.n = 0 ∨ exponentOf x < -16382
  · have power : (2 : ℚ) ^ (x.k - -16445).toNat * 2 ^ (-16445 : Int) = 2 ^ x.k := by
      rw [← zpow_natCast, ← zpow_add₀ two_ne_zero]; congr 1; omega
    rw [ratOf, valOf_extOfNum_tiny tiny grid, Sys2Proof.Num.toRat, Sys2Proof.Num.toRat, Nat.shiftLeft_eq, Nat.cast_mul,
      Nat.cast_pow,
      Nat.cast_ofNat, mul_assoc, mul_assoc, mul_assoc, power]
  · obtain ⟨nonzero, low⟩ := not_or.1 tiny
    have power : (2 : ℚ) ^ (63 - (x.n.log2 : Int)) * 2 ^ (exponentOf x - 63) = 2 ^ x.k := by
      rw [← zpow_add₀ two_ne_zero, exponentOf]; congr 1; omega
    rw [ratOf, valOf_extOfNum_normal nonzero (not_lt.1 low) high, Sys2Proof.Num.toRat, Sys2Proof.Num.toRat,
      normalized_value fits, mul_assoc, mul_assoc, power, mul_assoc]

/-- So has the encoding of a number of at most 64 bits well inside the format. -/
theorem ratOf_extOfNum_small (small : x.n < 2 ^ 64) (low : -16445 ≤ x.k) (high : x.k ≤ 16320) :
    ratOf (extOfNum x) = x.toRat := by
  refine ratOf_extOfNum (fits_of_lt small) low ?_
  have : x.n.log2 < 64 := by
    by_cases zero : x.n = 0
    · rw [zero]; decide
    · exact (Nat.log2_lt zero).2 small
  rw [exponentOf]
  omega

theorem signOf_extOfNum (x : Sys2Proof.Num) : signOf (extOfNum x) = x.neg := signOf_mkExt ..

theorem denormal_fields : classOf v = .denormal → (expOf v).toNat = 0 ∧ (sigOf v).toNat < 2 ^ 63 := by
  rw [classOf_eq, classOfFields]; split_ifs <;> simp; omega

theorem classOf_pseudoDenormal_iff : classOf v = .pseudoDenormal ↔ (expOf v).toNat = 0 ∧ 2 ^ 63 ≤ (sigOf v).toNat := by
  rw [classOf_eq, classOfFields]; split_ifs <;> simp <;> omega

/-- A normal value is the encoding of its number, and a pseudo-denormal has the value of the normal number of exponent
1. -/
theorem extOfNum_valOf_integer (integer : 2 ^ 63 ≤ (sigOf v).toNat) :
    extOfNum (valOf v) = mkExt (signOf v) (BitVec.ofNat 15 (max (expOf v).toNat 1)) (sigOf v) := by
  have exp := (expOf v).isLt
  have nonzero : (sigOf v).toNat ≠ 0 := by omega
  have log : (sigOf v).toNat.log2 = 63 := (Nat.log2_eq_iff nonzero).2 ⟨integer, (sigOf v).isLt⟩
  have encoded : encodeFinite fmtExt (valOf v).n (valOf v).k = (max (expOf v).toNat 1, (sigOf v).toNat) := by
    change encodeFinite fmtExt (sigOf v).toNat ((max (expOf v).toNat 1 : Nat) - 16446) = _
    unfold encodeFinite
    dsimp only
    rw [if_neg nonzero, log]
    refine (if_pos ?_).trans (Prod.ext ?_ ?_)
    · change (-16382 : Int) ≤ _; omega
    · change ((63 : Nat) + ((max (expOf v).toNat 1 : Nat) - (16446 : Int)) + 16383).toNat = _; omega
    · rfl
  rw [extOfNum, encoded, BitVec.ofNat_toNat, BitVec.setWidth_eq]
  rfl

/-- A denormal or a zero is the encoding of its number. -/
theorem extOfNum_valOf_denormal (exp : (expOf v).toNat = 0) (fraction : (sigOf v).toNat < 2 ^ 63) :
    extOfNum (valOf v) = v := by
  have k : (valOf v).k = -16445 := by
    change ((max (expOf v).toNat 1 : Nat) : Int) - 16446 = _
    rw [exp]; rfl
  have tiny : (valOf v).n = 0 ∨ exponentOf (valOf v) < -16382 := by
    by_cases zero : (sigOf v).toNat = 0
    · exact .inl zero
    · have log := (Nat.log2_lt zero).2 fraction
      right
      rw [exponentOf, k]
      change ((sigOf v).toNat.log2 : Int) + -16445 < _
      omega
  have encoded : encodeFinite fmtExt (valOf v).n (valOf v).k = (0, (sigOf v).toNat) := by
    unfold encodeFinite
    dsimp only
    by_cases zero : (valOf v).n = 0
    · rw [if_pos zero]; exact Prod.ext rfl zero.symm
    · rw [if_neg zero]
      refine (if_neg (not_le.2 (tiny.resolve_left zero))).trans (Prod.ext rfl ?_)
      rw [k]
      rfl
  have field : expOf v = BitVec.ofNat 15 0 := BitVec.eq_of_toNat_eq exp
  rw [extOfNum, encoded, BitVec.ofNat_toNat, BitVec.setWidth_eq, ← field]
  exact mkExt_fields v

/-! ### The encodings a store writes (R136, R147, R167) -/

/-- Equal values differ by a shift. -/
theorem shift_of_equal_values (h : (n : ℚ) * (2 : ℚ) ^ k = m * (2 : ℚ) ^ e) :
    (k ≤ e ∧ n = m <<< (e - k).toNat) ∨ (e ≤ k ∧ m = n <<< (k - e).toNat) := by
  have shift {a b : Nat} {i j : Int} (le : i ≤ j) (h : (a : ℚ) * 2 ^ i = b * 2 ^ j) : a = b <<< (j - i).toNat := by
    have power : (2 : ℚ) ^ j = 2 ^ (j - i).toNat * 2 ^ i := by
      rw [← zpow_natCast, ← zpow_add₀ two_ne_zero]; congr 1; omega
    rw [power, ← mul_assoc] at h
    have := mul_right_cancel₀ (zpow_ne_zero i two_ne_zero) h
    rw [Nat.shiftLeft_eq]
    exact_mod_cast this
  rcases le_total k e with le | le
  · exact .inl ⟨le, shift le h⟩
  · exact .inr ⟨le, shift le h.symm⟩

theorem log2_shiftNat (h : n ≠ 0) {d : Int} (nonneg : 0 ≤ (n.log2 : Int) + d) :
    ((shiftNat n d).log2 : Int) = n.log2 + d := by
  unfold shiftNat
  split
  · rw [log2_shiftLeft h]; omega
  · rw [log2_shiftRight]; omega

/-- What a format reads of a biased exponent and of a fraction, its integer bit implicit. -/
def fieldsValue (f : Fmt) (exp fraction : Nat) : Nat × Int :=
  (if exp = 0 then fraction else 2 ^ (f.prec - 1) + fraction, (max exp 1 : Nat) - (f.emax + f.prec - 1))

theorem fieldsValue_bounds {f : Fmt} {exp fraction : Nat} (hp : 0 < f.prec) (hmax : 0 < f.emax)
    (hexp : (exp : Int) ≤ 2 * f.emax) (hf : fraction < 2 ^ (f.prec - 1)) :
    (fieldsValue f exp fraction).1 < 2 ^ f.prec ∧ 2 - f.emax - f.prec ≤ (fieldsValue f exp fraction).2 ∧
      (fieldsValue f exp fraction).2 ≤ f.emax - f.prec + 1 := by
  obtain ⟨p, hp⟩ : ∃ p, f.prec = p + 1 := ⟨f.prec - 1, by omega⟩
  unfold fieldsValue
  dsimp only
  rw [hp, Nat.add_sub_cancel] at hf ⊢
  rw [pow_succ]
  refine ⟨?_, by omega, by omega⟩
  split <;> omega

/-- The encoding of a number that a format holds has no biased exponent of the infinities, and reads back as the number. -/
theorem encodeFinite_value {f : Fmt} (hp : 0 < f.prec) (hmax : 0 < f.emax) (hmin : f.emin = 1 - f.emax)
    (h : (n : ℚ) * (2 : ℚ) ^ k = m * (2 : ℚ) ^ e) (hm : m < 2 ^ f.prec) (low : f.emin - f.prec + 1 ≤ e)
    (high : e ≤ f.emax - f.prec + 1) :
    ((encodeFinite f n k).1 : Int) ≤ 2 * f.emax ∧
      ((fieldsValue f (encodeFinite f n k).1 ((encodeFinite f n k).2 % 2 ^ (f.prec - 1))).1 : ℚ) *
        2 ^ (fieldsValue f (encodeFinite f n k).1 ((encodeFinite f n k).2 % 2 ^ (f.prec - 1))).2 = n * 2 ^ k := by
  by_cases zero : n = 0
  · have encoded : encodeFinite f n k = (0, 0) := if_pos zero
    rw [encoded, zero]
    refine ⟨by simp only [Nat.cast_zero]; omega, by simp [fieldsValue]⟩
  have shift := shift_of_equal_values h
  have fits : FitsIn f.prec n := by
    rcases shift with ⟨-, rfl⟩ | ⟨-, rfl⟩
    · rw [Nat.shiftLeft_eq]
      exact fits_of_dvd (Nat.dvd_mul_left ..) (by rw [pow_add]; exact Nat.mul_lt_mul_of_pos_right hm (Nat.two_pow_pos _))
    · rw [Nat.shiftLeft_eq] at hm
      exact fits_of_lt ((Nat.le_mul_of_pos_right n (Nat.two_pow_pos _)).trans_lt hm)
  have log : (n.log2 : Int) + k = m.log2 + e := by
    rcases shift with ⟨le, rfl⟩ | ⟨le, rfl⟩
    · have nonzero : m ≠ 0 := by rintro rfl; exact zero (Nat.zero_shiftLeft _)
      rw [log2_shiftLeft nonzero]; omega
    · rw [log2_shiftLeft zero]; omega
  have logm : m.log2 < f.prec := by
    by_cases hz : m = 0
    · rw [hz]; exact hp
    · exact (Nat.log2_lt hz).2 hm
  by_cases normal : f.emin ≤ (n.log2 : Int) + k
  · have encoded : encodeFinite f n k = (((n.log2 : Int) + k + f.emax).toNat, shiftNat n ((f.prec : Int) - 1 - n.log2)) :=
      (if_neg zero).trans (if_pos normal)
    have log := log2_shiftNat zero (d := (f.prec : Int) - 1 - n.log2) (by omega)
    have value := shiftNat_value (n := n) (d := (f.prec : Int) - 1 - n.log2) (by
      rw [show (-((f.prec : Int) - 1 - n.log2)).toNat = n.log2 + 1 - f.prec by omega]; exact .inr fits)
    rw [encoded]
    generalize shiftNat n ((f.prec : Int) - 1 - n.log2) = s at log value ⊢
    obtain ⟨p, hp⟩ : ∃ p, f.prec = p + 1 := ⟨f.prec - 1, by omega⟩
    rw [hp] at log value logm high
    have nonzero : s ≠ 0 := by
      rintro rfl
      exact absurd value.symm (by positivity)
    have lo := (Nat.le_log2 (k := p) nonzero).1 (by omega)
    have hi : s < 2 ^ (p + 1) := lt_of_log2 (by omega)
    have rest : 2 ^ p + s % 2 ^ p = s := by
      rw [pow_succ] at hi
      rw [Nat.mod_eq_sub_mod lo, Nat.mod_eq_of_lt (by omega)]
      omega
    refine ⟨by omega, ?_⟩
    rw [fieldsValue, hp, Nat.add_sub_cancel, if_neg (by dsimp only; omega), rest, value, mul_assoc,
      ← zpow_add₀ two_ne_zero]
    congr 2
    omega
  · have encoded : encodeFinite f n k = (0, shiftNat n (k - f.emin + f.prec - 1)) :=
      (if_neg zero).trans (if_neg normal)
    have value := shiftNat_value (n := n) (d := k - f.emin + f.prec - 1) (by
      rcases shift with ⟨le, rfl⟩ | ⟨le, -⟩
      · rw [Nat.shiftLeft_eq]
        exact .inr ((Nat.pow_dvd_pow 2 (by omega)).trans (Nat.dvd_mul_left ..))
      · exact .inl (by omega))
    have small : shiftNat n (k - f.emin + f.prec - 1) < 2 ^ (f.prec - 1) := by
      refine lt_of_log2 ?_
      have := log2_shiftNat zero (d := k - f.emin + f.prec - 1) (by omega)
      omega
    rw [encoded]
    refine ⟨by simp only [Nat.cast_zero]; omega, ?_⟩
    rw [fieldsValue, if_pos rfl, Nat.mod_eq_of_lt small, value, mul_assoc, ← zpow_add₀ two_ne_zero]
    congr 2
    simp only [Nat.zero_max, Nat.cast_one]
    omega

/-! ### The real formats of memory (R136, R152) -/

section
variable {w p : Nat} (neg : Bool) (exp : BitVec w) (fraction : BitVec p)

theorem fraction_append : (BitVec.ofBool neg ++ exp ++ fraction).extractLsb' 0 p = fraction :=
  (BitVec.extractLsb'_append_eq_of_add_le (by omega)).trans BitVec.extractLsb'_eq_self

theorem exp_append : (BitVec.ofBool neg ++ exp ++ fraction).extractLsb' p w = exp := by
  rw [BitVec.extractLsb'_append_eq_of_le (le_refl p), Nat.sub_self]
  exact (BitVec.extractLsb'_append_eq_of_add_le (by omega)).trans BitVec.extractLsb'_eq_self

theorem sign_append : (BitVec.ofBool neg ++ exp ++ fraction).getLsbD (w + p) = neg := by
  rw [BitVec.getLsbD_append, if_neg (by omega), Nat.add_sub_cancel, BitVec.getLsbD_append, if_neg (by omega), Nat.sub_self]
  simp

end

theorem extOfSingle_append (neg : Bool) (exp : BitVec 8) (fraction : BitVec 23) :
    extOfSingle (BitVec.ofBool neg ++ exp ++ fraction) =
      if exp.toNat = 255 then mkExt neg 0x7FFF#15 (BitVec.ofNat 64 (2 ^ 63 + fraction.toNat <<< 40))
      else extOfNum { neg := neg, n := (fieldsValue fmtSingle exp.toNat fraction.toNat).1,
                      k := (fieldsValue fmtSingle exp.toNat fraction.toNat).2 } := by
  have sign : (BitVec.ofBool neg ++ exp ++ fraction).getLsbD 31 = neg := sign_append neg exp fraction
  have field : (BitVec.ofBool neg ++ exp ++ fraction).extractLsb' 23 8 = exp := exp_append neg exp fraction
  rw [extOfSingle, sign, field, fraction_append neg exp fraction]
  rfl

theorem extOfDouble_append (neg : Bool) (exp : BitVec 11) (fraction : BitVec 52) :
    extOfDouble (BitVec.ofBool neg ++ exp ++ fraction) =
      if exp.toNat = 2047 then mkExt neg 0x7FFF#15 (BitVec.ofNat 64 (2 ^ 63 + fraction.toNat <<< 11))
      else extOfNum { neg := neg, n := (fieldsValue fmtDouble exp.toNat fraction.toNat).1,
                      k := (fieldsValue fmtDouble exp.toNat fraction.toNat).2 } := by
  have sign : (BitVec.ofBool neg ++ exp ++ fraction).getLsbD 63 = neg := sign_append neg exp fraction
  have field : (BitVec.ofBool neg ++ exp ++ fraction).extractLsb' 52 11 = exp := exp_append neg exp fraction
  rw [extOfDouble, sign, field, fraction_append neg exp fraction]
  rfl

theorem toRat_fields (neg : Bool) (exp fraction one : Nat) (bias : Int) :
    ({ neg := neg, n := if exp = 0 then fraction else one + fraction, k := (max exp 1 : Nat) - bias } : Sys2Proof.Num).toRat =
      (if neg then -1 else 1) * (if exp = 0 then (fraction : ℚ) * (2 : ℚ) ^ (1 - bias)
        else ((one + fraction : Nat) : ℚ) * (2 : ℚ) ^ ((exp : Int) - bias)) := by
  rw [Sys2Proof.Num.toRat, mul_assoc]
  by_cases denormal : exp = 0
  · rw [if_pos denormal, if_pos denormal, denormal]
    rfl
  · rw [if_neg denormal, if_neg denormal, Nat.max_eq_left (by omega)]

theorem ratOf_extOfSingle {p : BitVec 32} (finite : p.extractLsb' 23 8 ≠ 0xFF#8) :
    ratOf (extOfSingle p) = (if p.getLsbD 31 then -1 else 1) *
      (if p.extractLsb' 23 8 = 0#8 then ((p.extractLsb' 0 23).toNat : ℚ) * (2 : ℚ) ^ (-149 : Int)
        else ((2 ^ 23 + (p.extractLsb' 0 23).toNat : Nat) : ℚ) *
          (2 : ℚ) ^ (((p.extractLsb' 23 8).toNat : Int) - 150)) := by
  have exp := (p.extractLsb' 23 8).isLt
  have fraction := (p.extractLsb' 0 23).isLt
  have field : (p.extractLsb' 23 8).toNat ≠ 255 := fun h => finite (BitVec.eq_of_toNat_eq h)
  have zero : p.extractLsb' 23 8 = 0#8 ↔ (p.extractLsb' 23 8).toNat = 0 := BitVec.toNat_inj.symm
  unfold extOfSingle
  dsimp only
  rw [if_neg field]
  refine (ratOf_extOfNum_small (by dsimp only; split <;> omega) (by dsimp only; omega) (by dsimp only; omega)).trans ?_
  rw [toRat_fields]
  simp only [zero]
  rfl

theorem ratOf_extOfDouble {p : BitVec 64} (finite : p.extractLsb' 52 11 ≠ 0x7FF#11) :
    ratOf (extOfDouble p) = (if p.getLsbD 63 then -1 else 1) *
      (if p.extractLsb' 52 11 = 0#11 then ((p.extractLsb' 0 52).toNat : ℚ) * (2 : ℚ) ^ (-1074 : Int)
        else ((2 ^ 52 + (p.extractLsb' 0 52).toNat : Nat) : ℚ) *
          (2 : ℚ) ^ (((p.extractLsb' 52 11).toNat : Int) - 1075)) := by
  have exp := (p.extractLsb' 52 11).isLt
  have fraction := (p.extractLsb' 0 52).isLt
  have field : (p.extractLsb' 52 11).toNat ≠ 2047 := fun h => finite (BitVec.eq_of_toNat_eq h)
  have zero : p.extractLsb' 52 11 = 0#11 ↔ (p.extractLsb' 52 11).toNat = 0 := BitVec.toNat_inj.symm
  unfold extOfDouble
  dsimp only
  rw [if_neg field]
  refine (ratOf_extOfNum_small (by dsimp only; split <;> omega) (by dsimp only; omega) (by dsimp only; omega)).trans ?_
  rw [toRat_fields]
  simp only [zero]
  rfl

theorem ratOf_extOfInt {i : Int} (small : i.natAbs ≤ 2 ^ 64 - 1) : ratOf (extOfInt i) = i := by
  refine (ratOf_extOfNum_small (by dsimp only; omega) (by dsimp only; omega) (by dsimp only; omega)).trans ?_
  rw [Sys2Proof.Num.toRat]
  dsimp only
  rw [zpow_zero, mul_one, Nat.cast_natAbs]
  by_cases negative : i < 0
  · rw [if_pos (decide_eq_true negative), abs_of_neg negative]; push_cast; ring
  · rw [if_neg (by simpa using negative), abs_of_nonneg (not_lt.1 negative), one_mul]

/-- The value and the sign of what a format reads back of the number it stored. -/
theorem stored_single (h : (n : ℚ) * (2 : ℚ) ^ k = m * (2 : ℚ) ^ e) (hm : m < 2 ^ 24) (low : -149 ≤ e) (high : e ≤ 104) :
    ratOf (extOfSingle (singleOf (.finite neg n k))) = (if neg then -1 else 1) * (m * (2 : ℚ) ^ e) ∧
      signOf (extOfSingle (singleOf (.finite neg n k))) = neg := by
  obtain ⟨exp, value⟩ := encodeFinite_value (f := fmtSingle) (by decide) (by decide) (by decide) h hm low high
  obtain ⟨lt, lo, hi⟩ := fieldsValue_bounds (f := fmtSingle) (by decide) (by decide) exp
    (Nat.mod_lt (encodeFinite fmtSingle n k).2 (Nat.two_pow_pos 23))
  change _ ≤ (2 * 127 : Int) at exp
  have read := extOfSingle_append neg (BitVec.ofNat 8 (encodeFinite fmtSingle n k).1)
    (BitVec.ofNat 23 (encodeFinite fmtSingle n k).2)
  rw [BitVec.toNat_ofNat, BitVec.toNat_ofNat, Nat.mod_eq_of_lt (by omega : (encodeFinite fmtSingle n k).1 < 2 ^ 8),
    if_neg (by omega)] at read
  change extOfSingle (singleOf (.finite neg n k)) = _ at read
  rw [read, signOf_extOfNum]
  refine ⟨(ratOf_extOfNum_small ?_ ?_ ?_).trans ?_, rfl⟩
  · exact lt.trans_le (Nat.pow_le_pow_right (by decide) (by decide))
  · exact (by decide : (-16445 : Int) ≤ 2 - fmtSingle.emax - fmtSingle.prec).trans lo
  · exact hi.trans (by decide)
  · rw [Sys2Proof.Num.toRat, mul_assoc, ← h, ← value]
    rfl

theorem stored_double (h : (n : ℚ) * (2 : ℚ) ^ k = m * (2 : ℚ) ^ e) (hm : m < 2 ^ 53) (low : -1074 ≤ e) (high : e ≤ 971) :
    ratOf (extOfDouble (doubleOf (.finite neg n k))) = (if neg then -1 else 1) * (m * (2 : ℚ) ^ e) ∧
      signOf (extOfDouble (doubleOf (.finite neg n k))) = neg := by
  obtain ⟨exp, value⟩ := encodeFinite_value (f := fmtDouble) (by decide) (by decide) (by decide) h hm low high
  obtain ⟨lt, lo, hi⟩ := fieldsValue_bounds (f := fmtDouble) (by decide) (by decide) exp
    (Nat.mod_lt (encodeFinite fmtDouble n k).2 (Nat.two_pow_pos 52))
  change _ ≤ (2 * 1023 : Int) at exp
  have read := extOfDouble_append neg (BitVec.ofNat 11 (encodeFinite fmtDouble n k).1)
    (BitVec.ofNat 52 (encodeFinite fmtDouble n k).2)
  rw [BitVec.toNat_ofNat, BitVec.toNat_ofNat, Nat.mod_eq_of_lt (by omega : (encodeFinite fmtDouble n k).1 < 2 ^ 11),
    if_neg (by omega)] at read
  change extOfDouble (doubleOf (.finite neg n k)) = _ at read
  rw [read, signOf_extOfNum]
  refine ⟨(ratOf_extOfNum_small ?_ ?_ ?_).trans ?_, rfl⟩
  · exact lt.trans_le (Nat.pow_le_pow_right (by decide) (by decide))
  · exact (by decide : (-16445 : Int) ≤ 2 - fmtDouble.emax - fmtDouble.prec).trans lo
  · exact hi.trans (by decide)
  · rw [Sys2Proof.Num.toRat, mul_assoc, ← h, ← value]
    rfl

/-! ### Infinities and NaNs in the real formats of memory (R143, R167) -/

theorem and_mask {m mask : BitVec 64} {b : Nat} (hmask : ∀ j < 64, mask.getLsbD j = decide (b ≤ j)) :
    (m &&& mask) = (m >>> b) <<< b := by
  ext j hj
  rw [BitVec.getElem_and, BitVec.getElem_shiftLeft, BitVec.getElem_eq_testBit_toNat mask, BitVec.testBit_toNat, hmask j hj]
  by_cases le : b ≤ j
  · simp [le, hj, Nat.add_sub_cancel' le, not_lt.2 le]
  · simp [le, not_le.1 le]

theorem stored_nan {m mask : BitVec 64} {b c : Nat} (hb : b + c = 63) (hmask : ∀ j < 64, mask.getLsbD j = decide (b ≤ j))
    (integer : m.getLsbD 63 = true) : BitVec.ofNat 64 (2 ^ 63 + (m.extractLsb' b c).toNat <<< b) = m &&& mask := by
  have lt := m.isLt
  have top : 2 ^ 63 ≤ m.toNat := by
    have bit : m.getLsbD 63 = m.msb := by simp [BitVec.msb_eq_getLsbD_last]
    rw [bit, BitVec.msb_eq_decide] at integer
    exact of_decide_eq_true integer
  have power : (2 : Nat) ^ 63 = 2 ^ c * 2 ^ b := by rw [← pow_add, add_comm c, hb]
  have upper : m.toNat / 2 ^ b < 2 ^ c + 2 ^ c := by
    rw [Nat.div_lt_iff_lt_mul (Nat.two_pow_pos b), add_mul, ← power]
    omega
  have lower : 2 ^ c ≤ m.toNat / 2 ^ b := by
    rw [Nat.le_div_iff_mul_le (Nat.two_pow_pos b), ← power]
    exact top
  rw [and_mask hmask]
  refine BitVec.eq_of_toNat_eq ?_
  rw [BitVec.toNat_ofNat, BitVec.toNat_shiftLeft, BitVec.toNat_ushiftRight, BitVec.extractLsb'_toNat,
    Nat.shiftRight_eq_div_pow, Nat.shiftLeft_eq, Nat.shiftLeft_eq, Nat.mod_eq_sub_mod lower,
    Nat.mod_eq_of_lt (by omega : m.toNat / 2 ^ b - 2 ^ c < 2 ^ c), power, ← add_mul, Nat.add_sub_cancel' lower]

/-! ### Packed decimals (R149, R154, R170) -/

theorem bcdOf_lt (k n : Nat) : bcdOf k n < 16 ^ k := by
  induction k generalizing n with
  | zero => exact Nat.one_pos
  | succ k ih =>
    have := ih (n / 10)
    rw [bcdOf, pow_succ]
    omega

theorem bcdOf_digit {j k : Nat} (h : j < k) (n : Nat) : bcdOf k n / 16 ^ j % 16 = n / 10 ^ j % 10 := by
  induction k generalizing n j with
  | zero => omega
  | succ k ih =>
    rw [bcdOf]
    cases j with
    | zero => simp only [pow_zero, Nat.div_one]; omega
    | succ j =>
      rw [pow_succ', ← Nat.div_div_eq_div_mul, pow_succ', ← Nat.div_div_eq_div_mul,
        show (n % 10 + 16 * bcdOf k (n / 10)) / 16 = bcdOf k (n / 10) by omega]
      exact ih (by omega) (n / 10)

theorem digit_packedDecimal (neg : Bool) (n : Nat) {j : Nat} (h : j < 18) :
    ((packedDecimal neg n).extractLsb' (4 * j) 4).toNat = n / 10 ^ j % 10 := by
  have lt : bcdOf 18 n < 2 ^ 72 := bcdOf_lt 18 n
  have low : (packedDecimal neg n).extractLsb' (4 * j) 4 = (BitVec.ofNat 72 (bcdOf 18 n)).extractLsb' (4 * j) 4 :=
    BitVec.extractLsb'_append_eq_of_add_le (by omega)
  rw [low, BitVec.extractLsb'_toNat, BitVec.toNat_ofNat, Nat.mod_eq_of_lt lt, Nat.shiftRight_eq_div_pow, pow_mul]
  exact bcdOf_digit h n

/-- The digits of a packed decimal write its number, from the eighteenth digit down. -/
theorem digits_packedDecimal (neg : Bool) (n a : Nat) {k : Nat} (h : k ≤ 18) :
    (∀ d ∈ bcdDigits (packedDecimal neg n) k, d ≤ 9) ∧
      (bcdDigits (packedDecimal neg n) k).foldl (fun a d => 10 * a + d) a = a * 10 ^ k + n % 10 ^ k := by
  induction k generalizing a with
  | zero => exact ⟨fun d hd => (List.not_mem_nil hd).elim, by simp [bcdDigits, Nat.mod_one]⟩
  | succ k ih =>
    rw [bcdDigits, digit_packedDecimal neg n (by omega), List.foldl_cons]
    obtain ⟨small, value⟩ := ih (10 * a + n / 10 ^ k % 10) (by omega)
    refine ⟨fun d hd => ?_, ?_⟩
    · rcases List.mem_cons.1 hd with rfl | hd
      · omega
      · exact small d hd
    · rw [value, pow_succ, Nat.mod_mul]
      ring

theorem extOfBcd_packedDecimal (neg : Bool) (n : Nat) (h : n < 10 ^ 18) :
    extOfBcd (packedDecimal neg n) = some (extOfNum { neg := neg, n := n, k := 0 }) := by
  obtain ⟨small, value⟩ := digits_packedDecimal neg n 0 le_rfl
  have sign : (packedDecimal neg n).getLsbD 79 = neg := sign_append neg 0#7 _
  unfold extOfBcd
  dsimp only
  rw [if_pos (List.all_eq_true.2 fun d hd => decide_eq_true (small d hd)), sign, decimal, value, Nat.zero_mul, Nat.zero_add,
    Nat.mod_eq_of_lt h]

/-! ### O20 -/

/-- Settles O20: the register encoding by its fields, and each memory format by what is read back of what is stored. -/
theorem formatsEncodeTheirValues : Obligations.FormatsEncodeTheirValues := by
  unfold Obligations.FormatsEncodeTheirValues
  refine ⟨fun v => ⟨fun cls => ?_, fun cls => ?_⟩, fun p => ratOf_extOfSingle, fun p => ratOf_extOfDouble,
    fun i => ratOf_extOfInt, extOfBcd_packedDecimal, fun neg n m k e h => ⟨stored_single h, stored_double h⟩,
    fun neg => by cases neg <;> decide, fun neg m integer => ⟨?_, ?_⟩⟩
  · rcases cls with normal | denormal | zero
    · obtain ⟨exp, -, integer⟩ := classOf_normal_iff.1 normal
      rw [extOfNum_valOf_integer integer, Nat.max_eq_left (by omega), BitVec.ofNat_toNat, BitVec.setWidth_eq, mkExt_fields]
    · obtain ⟨exp, fraction⟩ := denormal_fields denormal
      exact extOfNum_valOf_denormal exp fraction
    · obtain ⟨exp, sig⟩ := classOf_zero_iff.1 zero
      exact extOfNum_valOf_denormal exp (by rw [sig]; decide)
  · obtain ⟨exp, integer⟩ := classOf_pseudoDenormal_iff.1 cls
    rw [extOfNum_valOf_integer integer, exp]
    rfl
  · have read := extOfSingle_append neg 0xFF#8 (m.extractLsb' 40 23)
    rw [if_pos (by decide)] at read
    exact read.trans (congrArg _ (stored_nan (by decide) (by decide) integer))
  · have read := extOfDouble_append neg 0x7FF#11 (m.extractLsb' 11 52)
    rw [if_pos (by decide)] at read
    exact read.trans (congrArg _ (stored_nan (by decide) (by decide) integer))

end Sys2Proof.Values


/-! PROOFS. The NaN of two operands (R164, R165), and when the basic arithmetic rounds a value and which (R184). -/

namespace Sys2Proof.Operations

open Sys2Proof Sys2Proof.Machine Sys2Proof.FormatsNumerics Sys2Proof.Arithmetic Sys2Proof.Fields

variable {a b v : Ext} {rc : RoundMode}

/-! ### Quieting (R164) -/

theorem getLsbD_quiet (v : Ext) (j : Nat) : (quiet v).getLsbD j = (v.getLsbD j || decide (j = 62)) := by
  have bit : (1#80 <<< 62).getLsbD j = decide (j = 62) := by
    by_cases h : j < 80
    · exact (by decide : ∀ j < 80, (1#80 <<< 62).getLsbD j = decide (j = 62)) j h
    · rw [BitVec.getLsbD_of_ge _ _ (by omega), decide_eq_false (by omega)]
  rw [quiet, BitVec.getLsbD_or, bit]

theorem quiet_eq_self (h : classOf v = .qnan) : quiet v = v := by
  have bit : v.getLsbD 62 = true := by
    have integer := (classOf_qnan_iff.1 h).2
    have := (quietBit_iff v (by omega)).2 integer
    simpa using this
  refine BitVec.eq_of_getLsbD_eq fun j _ => ?_
  rw [getLsbD_quiet]
  by_cases h : j = 62
  · simp [h, bit]
  · simp [h]

theorem expOf_quiet (v : Ext) : expOf (quiet v) = expOf v := by
  refine BitVec.eq_of_getLsbD_eq fun j hj => ?_
  simp only [expOf, BitVec.getLsbD_extractLsb', getLsbD_quiet, hj, decide_true, Bool.true_and]
  simp [show 64 + j ≠ 62 by omega]

/-- A NaN quieted is a QNaN. -/
theorem classOf_quiet (h : isNan v = true) : classOf (quiet v) = .qnan := by
  obtain ⟨exp, integer⟩ : (expOf v).toNat = 32767 ∧ 2 ^ 63 ≤ (sigOf v).toNat := by
    rcases isNan_iff.1 h with cls | cls
    · obtain ⟨exp, sig, -⟩ := classOf_snan_iff.1 cls
      exact ⟨exp, by omega⟩
    · obtain ⟨exp, sig⟩ := classOf_qnan_iff.1 cls
      exact ⟨exp, by omega⟩
  have top : 2 ^ 63 ≤ (sigOf (quiet v)).toNat :=
    (integerBit_iff _).1 (by rw [getLsbD_quiet, (integerBit_iff v).2 integer, Bool.true_or])
  refine classOf_qnan_iff.2 ⟨by rw [expOf_quiet, exp], (quietBit_iff _ top).1 ?_⟩
  simp [getLsbD_quiet]

/-! ### The NaN of two operands (R165) -/

/-- The operand Table 31-18 selects: a NaN. -/
theorem nanResult_cases (h : isNan a = true ∨ isNan b = true) :
    (isNan a = true ∧ nanResult a b = quiet a) ∨ (isNan b = true ∧ nanResult a b = quiet b) := by
  unfold nanResult
  by_cases both : (isNan a && isNan b) = true
  · obtain ⟨ha, hb⟩ := Bool.and_eq_true_iff.1 both
    rw [if_pos both]
    split_ifs with first second
    · left
      rw [quiet_eq_self (beq_iff_eq.1 (Bool.and_eq_true_iff.1 first).1)]
      exact ⟨ha, rfl⟩
    · right
      rw [quiet_eq_self (beq_iff_eq.1 (Bool.and_eq_true_iff.1 second).2)]
      exact ⟨hb, rfl⟩
    all_goals simp [ha, hb]
  · rw [if_neg both]
    rcases h with h | h
    · simp [h]
    · have other : isNan a = false := by simpa [h] using both
      simp [h, other]

/-- Of two NaNs of a kind the one with the larger significand. -/
theorem nanResult_same (h : classOf a = classOf b) (nan : isNan a = true) :
    ((sigOf b).toNat < (sigOf a).toNat → nanResult a b = quiet a) ∧
      ((sigOf a).toNat < (sigOf b).toNat → nanResult a b = quiet b) := by
  have other : isNan b = true := by rwa [isNan, ← h]
  have neither : (classOf b == .qnan && classOf b == .snan) = false ∧ (classOf b == .snan && classOf b == .qnan) = false := by
    cases classOf b <;> decide
  unfold nanResult
  rw [if_pos (by rw [nan, other]; rfl), h, neither.1, neither.2]
  refine ⟨fun lt => by simp [lt], fun lt => by simp [lt, lt.le]⟩

theorem not_nan_ne {c : Machine.Class} (h : isNan v = false) (hc : c = .qnan ∨ c = .snan) : classOf v ≠ c := by
  rintro rfl
  exact absurd (isNan_iff.2 hc.symm) (by rw [h]; exact Bool.false_ne_true)

/-- Settles O22, by the operand selected. -/
theorem nanResultByTheTable : Obligations.NanResultByTheTable := by
  intro a b h
  have cases := nanResult_cases h
  refine ⟨?_, ?_, fun hb => ?_, fun ha => ?_, fun ha hb => ?_, fun ha hb => ?_, fun same => ?_, fun same => ?_⟩
  · rcases cases with ⟨nan, eq⟩ | ⟨nan, eq⟩
    · rw [eq]; exact classOf_quiet nan
    · rw [eq]; exact classOf_quiet nan
  · exact cases.imp And.right And.right
  · rcases cases with ⟨-, eq⟩ | ⟨nan, -⟩
    · exact eq
    · exact absurd (hb.symm.trans nan) Bool.false_ne_true
  · rcases cases with ⟨nan, -⟩ | ⟨-, eq⟩
    · exact absurd (ha.symm.trans nan) Bool.false_ne_true
    · exact eq
  · simp [nanResult, isNan, ha, hb]
  · simp [nanResult, isNan, ha, hb]
  all_goals
    have nan : isNan a = true := by
      rcases h with h | h
      · exact h
      · rwa [isNan, same]
  · exact (nanResult_same same nan).1
  · exact (nanResult_same same nan).2

/-! ### The values of sums, products and quotients (R184) -/

theorem sign_natAbs (z : Int) : (if decide (z < 0) = true then -1 else 1) * (z.natAbs : ℚ) = z := by
  rw [Nat.cast_natAbs]
  by_cases negative : z < 0
  · rw [if_pos (decide_eq_true negative), abs_of_neg negative]; push_cast; ring
  · rw [if_neg (by simpa using negative), abs_of_nonneg (not_lt.1 negative), one_mul]

theorem addNum_toRat (a b : Sys2Proof.Num) : (addNum a b).toRat = a.toRat + b.toRat := by
  rw [toRat_at a (min_le_left a.k b.k), toRat_at b (min_le_right a.k b.k), ← add_mul, ← Int.cast_add]
  unfold addNum Sys2Proof.Num.toRat
  dsimp only
  congr 1
  exact sign_natAbs _

theorem mulNum_toRat (a b : Sys2Proof.Num) : (mulNum a b).toRat = a.toRat * b.toRat := by
  unfold mulNum Sys2Proof.Num.toRat
  dsimp only
  rw [zpow_add₀ two_ne_zero, Nat.cast_mul]
  cases a.neg <;> cases b.neg <;> simp <;> ring

theorem divNum_toRat (a b : Sys2Proof.Num) :
    (if (divNum a b).neg then -1 else 1) * ((a.n : ℚ) / b.n * (2 : ℚ) ^ (a.k - b.k)) = a.toRat / b.toRat := by
  unfold divNum Sys2Proof.Num.toRat
  dsimp only
  rw [zpow_sub₀ two_ne_zero]
  cases a.neg <;> cases b.neg <;> simp <;> ring

theorem toRat_eq_zero {x : Sys2Proof.Num} : x.toRat = 0 ↔ x.n = 0 := by
  unfold Sys2Proof.Num.toRat
  rw [mul_eq_zero, mul_eq_zero, or_iff_left (zpow_ne_zero _ two_ne_zero), or_iff_right (by split <;> norm_num),
    Nat.cast_eq_zero]

theorem ratOf_eq_zero_iff (h : isNumber v = true) (finite : isInf v = false) : ratOf v = 0 ↔ isZero v = true := by
  rw [ratOf, toRat_eq_zero]
  rcases number_cases h with zero | nonzero | inf
  · exact iff_of_true (isZero_iff.1 zero).2 zero
  · exact iff_of_false (isFiniteNonzero_value nonzero).1.ne'
      (ne_true_of_eq_false (Reductions.not_zero_of_finiteNonzero nonzero))
  · exact absurd (finite.symm.trans inf) Bool.false_ne_true

/-- The value of a number taken as it is. -/
theorem exactNum_value {y : Sys2Proof.Num} {num den : Nat} {k : Int} (h : (exactNum y).mag = .ratio num den k) :
    (if (exactNum y).neg then -1 else 1) * ((num : ℚ) / den * (2 : ℚ) ^ k) = y.toRat := by
  cases h
  rw [Nat.cast_one, div_one, Sys2Proof.Num.toRat, mul_assoc]
  rfl

/-! ### The inverse of the sign -/

theorem getLsbD_negate (v : Ext) (j : Nat) : (negate v).getLsbD j = (v.getLsbD j ^^ decide (j = 79)) := by
  have bit : (1#80 <<< 79).getLsbD j = decide (j = 79) := by
    by_cases h : j < 80
    · exact (by decide : ∀ j < 80, (1#80 <<< 79).getLsbD j = decide (j = 79)) j h
    · rw [BitVec.getLsbD_of_ge _ _ (by omega), decide_eq_false (by omega)]
  rw [negate, BitVec.getLsbD_xor, bit]

@[simp] theorem signOf_negate (v : Ext) : signOf (negate v) = !signOf v :=
  (getLsbD_negate v 79).trans (Bool.xor_true _)

@[simp] theorem expOf_negate (v : Ext) : expOf (negate v) = expOf v := by
  refine BitVec.eq_of_getLsbD_eq fun j hj => ?_
  simp only [expOf, BitVec.getLsbD_extractLsb', getLsbD_negate]
  simp [show 64 + j ≠ 79 by omega]

@[simp] theorem sigOf_negate (v : Ext) : sigOf (negate v) = sigOf v := by
  refine BitVec.eq_of_getLsbD_eq fun j hj => ?_
  simp only [sigOf, BitVec.getLsbD_extractLsb', getLsbD_negate]
  simp [show j ≠ 79 by omega]

@[simp] theorem classOf_negate (v : Ext) : classOf (negate v) = classOf v := by simp [classOf_eq]

@[simp] theorem isInf_negate (v : Ext) : isInf (negate v) = isInf v := by simp [isInf]

@[simp] theorem isZero_negate (v : Ext) : isZero (negate v) = isZero v := by simp [isZero]

theorem isNumber_negate (h : isNumber v = true) : isNumber (negate v) = true := by
  simpa [isNumber, isUnsupported, isNan] using h

@[simp] theorem ratOf_negate (v : Ext) : ratOf (negate v) = -ratOf v := by
  unfold ratOf Sys2Proof.Num.toRat valOf
  simp only [signOf_negate, expOf_negate, sigOf_negate]
  cases signOf v <;> simp

theorem negate_of_isInf (h : isInf v = true) : negate v = infinity (!signOf v) := by
  rw [eq_infinity_of_isInf ((isInf_negate v).trans h), signOf_negate]

/-! ### The sum (R184) -/

theorem addExt_infinite (h : isInf a = true ∨ isInf b = true) :
    addExt rc a b = if isInf a = true ∧ isInf b = true ∧ signOf a ≠ signOf b then .invalid
      else .exact (if isInf a then a else b) := by
  unfold addExt
  cases ha : isInf a <;> cases hb : isInf b
  · simp [ha, hb] at h
  · simp
  · simp
  · by_cases same : signOf a = signOf b <;> simp [same]

theorem addExt_finite (na : isNumber a = true) (nb : isNumber b = true) (ha : isInf a = false) (hb : isInf b = false) :
    addExt rc a b = if ratOf a + ratOf b = 0 then
        .exact (zero (if isZero a = true ∧ signOf a = signOf b then signOf a else rc == .down))
      else .number (exactNum (addNum (valOf a) (valOf b))) := by
  have sum : (addNum (valOf a) (valOf b)).n = 0 ↔ ratOf a + ratOf b = 0 := by
    rw [← toRat_eq_zero, addNum_toRat]; rfl
  have za := ratOf_eq_zero_iff na ha
  have zb := ratOf_eq_zero_iff nb hb
  unfold addExt
  simp only [ha, hb, Bool.and_self, Bool.false_eq_true, if_false, sum]
  by_cases zeros : isZero a = true ∧ isZero b = true
  · have cancel : ratOf a + ratOf b = 0 := by rw [za.2 zeros.1, zb.2 zeros.2, add_zero]
    rw [if_pos (Bool.and_eq_true_iff.2 zeros), if_pos cancel]
    by_cases same : signOf a = signOf b <;> simp [same, zeros.1]
  · rw [if_neg (by simpa using zeros)]
    refine if_ctx_congr Iff.rfl (fun cancel => ?_) fun _ => rfl
    have nonzero : ¬ isZero a = true := fun zero => by
      rw [za.2 zero, zero_add] at cancel
      exact zeros ⟨zero, zb.1 cancel⟩
    rw [if_neg fun h => nonzero h.1]

theorem addExt_eq_number {x : Exact} (na : isNumber a = true) (nb : isNumber b = true) (h : addExt rc a b = .number x) :
    (isInf a = false ∧ isInf b = false ∧ ratOf a + ratOf b ≠ 0) ∧ x = exactNum (addNum (valOf a) (valOf b)) := by
  by_cases infinite : isInf a = true ∨ isInf b = true
  · rw [addExt_infinite infinite] at h
    split at h <;> cases h
  · obtain ⟨ha, hb⟩ := not_or.1 infinite
    rw [Bool.not_eq_true] at ha hb
    rw [addExt_finite na nb ha hb] at h
    split at h
    · cases h
    · next nonzero => exact ⟨⟨ha, hb, nonzero⟩, (OpResult.number.inj h).symm⟩

theorem addExt_number_iff (na : isNumber a = true) (nb : isNumber b = true) :
    (∃ x, addExt rc a b = .number x) ↔ isInf a = false ∧ isInf b = false ∧ ratOf a + ratOf b ≠ 0 := by
  refine ⟨fun ⟨x, h⟩ => (addExt_eq_number na nb h).1, fun ⟨ha, hb, nonzero⟩ =>
    ⟨exactNum (addNum (valOf a) (valOf b)), ?_⟩⟩
  rw [addExt_finite na nb ha hb, if_neg nonzero]

theorem addExt_invalid_iff (na : isNumber a = true) (nb : isNumber b = true) :
    addExt rc a b = .invalid ↔ isInf a = true ∧ isInf b = true ∧ signOf a ≠ signOf b := by
  by_cases infinite : isInf a = true ∨ isInf b = true
  · rw [addExt_infinite infinite]
    split <;> simp_all
  · obtain ⟨ha, hb⟩ := not_or.1 infinite
    rw [Bool.not_eq_true] at ha hb
    rw [addExt_finite na nb ha hb]
    split <;> simp [ha]

theorem addExt_inf_left (ha : isInf a = true) (same : isInf b = true → signOf a = signOf b) : addExt rc a b = .exact a := by
  rw [addExt_infinite (.inl ha), if_neg fun ⟨_, hb, differ⟩ => differ (same hb), if_pos ha]

theorem addExt_inf_right (ha : isInf a = false) (hb : isInf b = true) : addExt rc a b = .exact b := by
  rw [addExt_infinite (.inr hb), if_neg (by simp [ha]), if_neg (by simp [ha])]

/-! ### The product and the quotient (R184) -/

/-- A number is of one of three kinds. -/
theorem number_flags (h : isNumber v = true) :
    (isZero v = true ∧ isFiniteNonzero v = false ∧ isInf v = false) ∨
      (isZero v = false ∧ isFiniteNonzero v = true ∧ isInf v = false) ∨
      (isZero v = false ∧ isFiniteNonzero v = false ∧ isInf v = true) := by
  obtain ⟨hu, hn⟩ := isNumber_iff.1 h
  cases cls : classOf v <;> simp [isZero, isFiniteNonzero, isDenormal, isInf, isUnsupported, isNan, cls] at hu hn ⊢

theorem mulExt_finite (fa : isFiniteNonzero a = true) (fb : isFiniteNonzero b = true) :
    mulExt a b = .number (exactNum (mulNum (valOf a) (valOf b))) := by
  simp [mulExt, Reductions.not_zero_of_finiteNonzero fa, Reductions.not_zero_of_finiteNonzero fb, isInf_finite fa,
    isInf_finite fb]

theorem divExt_finite (fa : isFiniteNonzero a = true) (fb : isFiniteNonzero b = true) :
    divExt a b = .number (divNum (valOf a) (valOf b)) := by
  simp [divExt, Reductions.not_zero_of_finiteNonzero fa, Reductions.not_zero_of_finiteNonzero fb, isInf_finite fa,
    isInf_finite fb]

theorem mulExt_eq_number {x : Exact} (na : isNumber a = true) (nb : isNumber b = true) (h : mulExt a b = .number x) :
    (isFiniteNonzero a = true ∧ isFiniteNonzero b = true) ∧ x = exactNum (mulNum (valOf a) (valOf b)) := by
  have finite : isFiniteNonzero a = true ∧ isFiniteNonzero b = true := by
    rcases number_flags na with ⟨za, fa, ia⟩ | ⟨za, fa, ia⟩ | ⟨za, fa, ia⟩ <;>
      rcases number_flags nb with ⟨zb, fb, ib⟩ | ⟨zb, fb, ib⟩ | ⟨zb, fb, ib⟩ <;> simp [mulExt, *] at h ⊢
  rw [mulExt_finite finite.1 finite.2] at h
  exact ⟨finite, (OpResult.number.inj h).symm⟩

theorem divExt_eq_number {x : Exact} (na : isNumber a = true) (nb : isNumber b = true) (h : divExt a b = .number x) :
    (isFiniteNonzero a = true ∧ isFiniteNonzero b = true) ∧ x = divNum (valOf a) (valOf b) := by
  have finite : isFiniteNonzero a = true ∧ isFiniteNonzero b = true := by
    rcases number_flags na with ⟨za, fa, ia⟩ | ⟨za, fa, ia⟩ | ⟨za, fa, ia⟩ <;>
      rcases number_flags nb with ⟨zb, fb, ib⟩ | ⟨zb, fb, ib⟩ | ⟨zb, fb, ib⟩ <;> simp [divExt, *] at h ⊢
  rw [divExt_finite finite.1 finite.2] at h
  exact ⟨finite, (OpResult.number.inj h).symm⟩

theorem mulExt_invalid_iff :
    mulExt a b = .invalid ↔ isInf a = true ∧ isZero b = true ∨ isZero a = true ∧ isInf b = true := by
  unfold mulExt
  by_cases invalid : (isInf a && isZero b || isZero a && isInf b) = true
  · rw [if_pos invalid]
    simpa using invalid
  · rw [if_neg invalid]
    refine iff_of_false ?_ (by simpa using invalid)
    split_ifs <;> simp

theorem divExt_invalid_iff :
    divExt a b = .invalid ↔ isInf a = true ∧ isInf b = true ∨ isZero a = true ∧ isZero b = true := by
  unfold divExt
  by_cases invalid : (isInf a && isInf b || isZero a && isZero b) = true
  · rw [if_pos invalid]
    simpa using invalid
  · rw [if_neg invalid]
    refine iff_of_false ?_ (by simpa using invalid)
    split_ifs <;> simp

theorem divExt_zeroDivide_iff (na : isNumber a = true) (nb : isNumber b = true) (n : Bool) :
    divExt a b = .zeroDivide n ↔ isFiniteNonzero a = true ∧ isZero b = true ∧ n = (signOf a ^^ signOf b) := by
  rcases number_flags na with ⟨za, fa, ia⟩ | ⟨za, fa, ia⟩ | ⟨za, fa, ia⟩ <;>
    rcases number_flags nb with ⟨zb, fb, ib⟩ | ⟨zb, fb, ib⟩ | ⟨zb, fb, ib⟩ <;> simp [divExt, *, eq_comm]

theorem isInf_of_isZero (h : isZero v = true) : isInf v = false := by
  rw [isInf, beq_iff_eq.1 h]; rfl

/-- Settles O35, by the class of the operands; a difference is the sum with the second operand's sign inverted. -/
theorem arithmeticExactValue : Obligations.ArithmeticExactValue := by
  intro rc a b na nb neg
  have nb' := isNumber_negate nb
  have difference : ratOf a + ratOf (negate b) = ratOf a - ratOf b := by rw [ratOf_negate, sub_eq_add_neg]
  refine ⟨fun x num den k mag => ⟨fun h => ?_, fun h => ?_, fun h => ?_, fun h => ?_⟩, ?_, addExt_number_iff na nb, ?_,
    ⟨fun ⟨x, h⟩ => (mulExt_eq_number na nb h).1, fun ⟨fa, fb⟩ => ⟨_, mulExt_finite fa fb⟩⟩,
    ⟨fun ⟨x, h⟩ => (divExt_eq_number na nb h).1, fun ⟨fa, fb⟩ => ⟨_, divExt_finite fa fb⟩⟩, addExt_invalid_iff na nb, ?_,
    mulExt_invalid_iff, divExt_invalid_iff, divExt_zeroDivide_iff na nb, addExt_inf_left, addExt_inf_right, ?_, ?_, ?_,
    ?_, ?_, ?_, ?_, ?_, ?_⟩
  · obtain ⟨-, rfl⟩ := addExt_eq_number na nb h
    exact (exactNum_value mag).trans (addNum_toRat _ _)
  · obtain ⟨-, rfl⟩ := addExt_eq_number na nb' h
    exact (exactNum_value mag).trans ((addNum_toRat _ _).trans difference)
  · obtain ⟨-, rfl⟩ := mulExt_eq_number na nb h
    exact (exactNum_value mag).trans (mulNum_toRat _ _)
  · obtain ⟨-, rfl⟩ := divExt_eq_number na nb h
    cases mag
    exact divNum_toRat _ _
  · rintro op x h
    cases op with
    | add => obtain ⟨-, rfl⟩ := addExt_eq_number na nb h; exact ⟨_, _, _, rfl⟩
    | sub => obtain ⟨-, rfl⟩ := addExt_eq_number na nb' h; exact ⟨_, _, _, rfl⟩
    | mul => obtain ⟨-, rfl⟩ := mulExt_eq_number na nb h; exact ⟨_, _, _, rfl⟩
    | div => obtain ⟨-, rfl⟩ := divExt_eq_number na nb h; exact ⟨_, _, _, rfl⟩
  · have iff := addExt_number_iff (rc := rc) na nb'
    rwa [difference, isInf_negate] at iff
  · refine (addExt_invalid_iff na nb').trans ?_
    rw [isInf_negate, signOf_negate]
    rw [Bool.ne_not]
  · intro ha hb cancel
    exact (addExt_finite na nb ha hb).trans (if_pos cancel)
  · intro ha differ
    exact addExt_inf_left ha fun hb => (signOf_negate b).symm ▸ Bool.eq_not.2 (differ ((isInf_negate b).symm.trans hb))
  · intro ha hb
    exact (addExt_inf_right ha ((isInf_negate b).trans hb)).trans (congrArg _ (negate_of_isInf hb))
  · intro ha hb cancel
    refine (addExt_finite na nb' ha ((isInf_negate b).trans hb)).trans ((if_pos (difference.trans cancel)).trans ?_)
    simp only [signOf_negate, Bool.eq_not]
  · intro za zb inf
    have := Bool.or_eq_true_iff.2 inf
    simp [binOp, mulExt, za, zb, this, neg]
  · intro ha hb zero
    have := Bool.or_eq_true_iff.2 zero
    simp [binOp, mulExt, ha, hb, this, neg]
  · intro ha hb
    simp [binOp, divExt, ha, hb, isZero_of_isInf ha, neg]
  · intro ha hb
    simp [binOp, divExt, ha, hb, isZero_of_isInf hb, neg]
  · intro za fb
    simp [binOp, divExt, za, isInf_finite fb, Reductions.not_zero_of_finiteNonzero fb, isInf_of_isZero za, neg]

end Sys2Proof.Operations


/-! PROOFS. DeliverT (R320, R331): it reports by the rounded exponent and the masks alone, and a result in range keeps its
accuracy. -/

namespace Sys2Proof.Transcendentals

open Sys2Proof Sys2Proof.Machine Sys2Proof.DataTransfer Sys2Proof.BasicArithmetic Sys2Proof.Running Sys2Proof.Delivery
open Sys2Proof.Arithmetic Sys2Proof.Fields Sys2Proof.RegisterOps Sys2Proof.Responses Sys2Proof.Stops
open Sys2Proof.Reductions

variable {s t u w : State} {cs : List Cond} {a : Approx} {i : Instr} {q : Option FarPtr} {p : List Prefix}

/-! ### What DeliverT reports -/

theorem reportInexact_eq (u : State) (inexact up : Bool) :
    u.reportInexact inexact up = ((if inexact then [Cond.p] else []).foldl State.signal u).setC1 (inexact && up) := by
  cases inexact <;> rfl

/-- A result below the exponent range, on the denormal grid (R161). -/
def onGrid (a : Approx) (rc : RoundMode) : Rounded :=
  roundGrid { neg := a.neg, mag := .ratio (roundedOf a).n 1 (roundedOf a).q } (-16445) rc

/-- DeliverT reports conditions and C1 and gives a value that depend on the control word alone; an overflow only above
the greatest exponent. -/
theorem deliverT_form (a : Approx) (s : State) : ∃ (ds : List Cond) (b : Bool) (v : Ext),
    (Cond.o ∈ ds → 16383 < (roundedOf a).exponent) ∧ (∀ c ∈ ds, c = .o ∨ c = .u ∨ c = .p) ∧
      ∀ u : State, u.cw = s.cw → deliverT a u = ((ds.foldl State.signal u).setC1 b, v) := by
  have masked {u : State} (h : u.cw = s.cw) (c : Cond) : u.masked c = s.masked c := by rw [State.masked, State.masked, h]
  have inexactOnly (b : Bool) : ∀ c ∈ (if b then [Cond.p] else []), c = .p := by cases b <;> simp
  by_cases great : fmtExt.emax < (roundedOf a).exponent
  · by_cases mo : s.masked .o = true
    · refine ⟨[.o, .p], (overflowValue fmtExt (rcOf s.cw) a.neg).isInfinite,
        extOfReal (overflowValue fmtExt (rcOf s.cw) a.neg), fun _ => great, by decide, fun u h => ?_⟩
      simp only [deliverT, if_pos great, masked h, mo, if_true, h]
      rfl
    · refine ⟨.o :: if (roundedOf a).inexact then [.p] else [], (roundedOf a).inexact && (roundedOf a).up,
        extOfReal (.finite a.neg (roundedOf a).n ((roundedOf a).q - 24576)), fun _ => great, ?_, fun u h => ?_⟩
      · exact List.forall_mem_cons.2 ⟨.inl rfl, fun c hc => .inr (.inr (inexactOnly _ c hc))⟩
      · simp only [deliverT, if_pos great, masked h, mo, Bool.false_eq_true, if_false, reportInexact_eq, List.foldl_cons]
  · by_cases tiny : (roundedOf a).exponent < fmtExt.emin
    · by_cases mu : s.masked .u = true
      · by_cases exactly : (!(roundedOf a).inexact && !(onGrid a (rcOf s.cw)).inexact) = true
        · refine ⟨[], false, extOfReal (.finite a.neg (onGrid a (rcOf s.cw)).n (onGrid a (rcOf s.cw)).q), by simp, by simp,
            fun u h => ?_⟩
          simp only [deliverT, if_neg great, if_pos tiny, masked h, mu, if_true, h]
          exact if_pos exactly
        · refine ⟨[.u, .p], if (onGrid a (rcOf s.cw)).inexact then (onGrid a (rcOf s.cw)).up else (roundedOf a).up,
            extOfReal (.finite a.neg (onGrid a (rcOf s.cw)).n (onGrid a (rcOf s.cw)).q), by simp, by decide, fun u h => ?_⟩
          simp only [deliverT, if_neg great, if_pos tiny, masked h, mu, if_true, h]
          exact if_neg exactly
      · refine ⟨.u :: if (roundedOf a).inexact then [.p] else [], (roundedOf a).inexact && (roundedOf a).up,
          extOfReal (.finite a.neg (roundedOf a).n ((roundedOf a).q + 24576)), fun h => ?_, ?_, fun u h => ?_⟩
        · exact absurd (inexactOnly _ _ ((List.mem_cons.1 h).resolve_left nofun)) nofun
        · exact List.forall_mem_cons.2 ⟨.inr (.inl rfl), fun c hc => .inr (.inr (inexactOnly _ c hc))⟩
        · simp only [deliverT, if_neg great, if_pos tiny, masked h, mu, Bool.false_eq_true, if_false, reportInexact_eq,
            List.foldl_cons]
    · refine ⟨if (roundedOf a).inexact then [.p] else [], (roundedOf a).inexact && (roundedOf a).up,
        extOfReal (.finite a.neg (roundedOf a).n (roundedOf a).q), fun h => ?_, fun c hc => .inr (.inr (inexactOnly _ c hc)),
        fun u _ => ?_⟩
      · exact absurd (inexactOnly _ _ h) nofun
      · simp only [deliverT, if_neg great, if_neg tiny, reportInexact_eq]

/-- Reporting conditions one after the other. -/
theorem reported_foldl (h : Reported cs s u) (ds : List Cond) : Reported (cs ++ ds) s (ds.foldl State.signal u) := by
  induction ds generalizing cs u with
  | nil => rwa [List.append_nil]
  | cons c ds ih =>
    have rest := ih (h.signal c)
    rwa [List.append_assoc] at rest

theorem c2_foldl (u : State) (ds : List Cond) : (ds.foldl State.signal u).sw.c2 = u.sw.c2 := by
  induction ds generalizing u with
  | nil => rfl
  | cons c ds ih => exact (ih (u.signal c)).trans (Compares.codes_signal u c).2.1

/-- Two runs that have reported the same. -/
theorem sameFlags_of_reported (h : Reported cs s u) (h' : Reported cs s w) : SameFlags u w :=
  ⟨h'.flagged.flags.trans h.flagged.flags.symm, h'.flagged.es.trans h.flagged.es.symm,
    h'.flagged.busy.trans h.flagged.busy.symm, h'.flagged.ferr.trans h.flagged.ferr.symm⟩

theorem SameFlags.reports (h : SameFlags u t) (c1 : t.sw.c1 = u.sw.c1) : Reports u t :=
  ⟨h.flags, h.es, h.busy, c1, h.ferr⟩

/-- What DeliverT leaves of a run: the same value, C1 and reports as of any other run that has reported the same. -/
structure DeliversAs (a : Approx) (cs ds : List Cond) (s u w : State) : Prop where
  value : (deliverT a u).2 = (deliverT a w).2
  c1 : (deliverT a u).1.sw.c1 = (deliverT a w).1.sw.c1
  reported : Reported (cs ++ ds) s (deliverT a u).1
  twin : Reported (cs ++ ds) s (deliverT a w).1
  c2 : (deliverT a u).1.sw.c2 = u.sw.c2

theorem deliverT_value (h : u.cw = w.cw) : (deliverT a u).2 = (deliverT a w).2 := by
  obtain ⟨ds, b, v, -, -, form⟩ := deliverT_form a w
  rw [form u h, form w rfl]

theorem deliverT_as (a : Approx) (h : Reported cs s u) (h' : Reported cs s w) : ∃ ds, DeliversAs a cs ds s u w := by
  obtain ⟨ds, b, v, -, -, form⟩ := deliverT_form a s
  have hu := form u h.cw
  have hw := form w h'.cw
  refine ⟨ds, by rw [hu, hw], by rw [hu, hw]; rfl, ?_, ?_, ?_⟩
  · rw [hu]; exact (reported_foldl h ds).setC1 b
  · rw [hw]; exact (reported_foldl h' ds).setC1 b
  · rw [hu]; exact c2_foldl u ds

/-! ### Accuracy (R331) -/

theorem deliverT_inRange (range : InRange fmtExt (roundedOf a)) (u : State) :
    deliverT a u = (u.reportInexact a.inexact a.up, extOfReal (.finite a.neg (roundedOf a).n (roundedOf a).q)) := by
  simp only [deliverT, if_neg (not_lt.2 range.2), if_neg (not_lt.2 range.1)]
  rfl

theorem toRat_eq_approxReal (a : Approx) :
    ((({ neg := a.neg, n := (roundedOf a).n, k := (roundedOf a).q } : Sys2Proof.Num).toRat : ℚ) : ℝ) = approxReal a := by
  unfold Sys2Proof.Num.toRat approxReal
  push_cast
  cases a.neg <;> simp [roundedOf]

/-- A result in range is delivered as it is. -/
theorem realOf_deliverT (range : InRange fmtExt (roundedOf a)) (u : State) : realOf (deliverT a u).2 = approxReal a := by
  have small : (roundedOf a).n < 2 ^ 64 := by
    have := a.frac.isLt
    change 2 ^ 63 + a.frac.toNat < _
    omega
  have exponent := roundedOf_exponent a
  have high : (roundedOf a).exponent ≤ 16383 := range.2
  have low : -16382 ≤ (roundedOf a).exponent := range.1
  rw [deliverT_inRange range, realOf, ← toRat_eq_approxReal]
  exact congrArg _ (Values.ratOf_extOfNum (x := { neg := a.neg, n := (roundedOf a).n, k := (roundedOf a).q })
    (ExactNumbers.fits_of_lt small) (by change -16445 ≤ a.exp; omega) high)

/-- Settles O49: NUMERICS conforms, and a result in range is not rounded again. -/
theorem deliveryKeepsAccuracy : Obligations.DeliveryKeepsAccuracy := by
  refine fun s => ⟨numerics_conform s.params, fun a f accurate range => ?_⟩
  have value := realOf_deliverT range s
  have up : a.inexact = false → a.up = false := fun exact => by
    have same : approxReal a = f := by
      by_contra differ
      rw [accurate.inexact.2 differ] at exact
      cases exact
    rw [Bool.eq_false_iff, ne_eq, accurate.up, same]
    exact lt_irrefl _
  refine ⟨value, by rw [value]; exact accurate.close, ?_, fun same => ?_, fun differ => ?_⟩
  · rw [value, ← accurate.up, deliverT_inRange range, c1_reportInexact up]
  · have exact : a.inexact = false := by
      rw [Bool.eq_false_iff, ne_eq, accurate.inexact, ← value]
      exact not_not.2 same
    have reported := reported_reportInexact (reported_refl s) a.inexact a.up
    rw [deliverT_inRange range]
    rw [exact] at reported ⊢
    exact reported.flagged
  · have inexact := accurate.inexact.2 (value ▸ differ)
    have reported := reported_reportInexact (reported_refl s) a.inexact a.up
    rw [deliverT_inRange range]
    rw [inexact] at reported ⊢
    exact reported.flagged

end Sys2Proof.Transcendentals


/-! PROOFS. The trigonometric instructions (R321 to R324): what each class of operand leaves. -/

namespace Sys2Proof.Trigonometry

open Sys2Proof Sys2Proof.Machine Sys2Proof.DataTransfer Sys2Proof.BasicArithmetic Sys2Proof.Running Sys2Proof.Delivery
open Sys2Proof.Arithmetic Sys2Proof.Fields Sys2Proof.RegisterOps Sys2Proof.Responses Sys2Proof.Stops
open Sys2Proof.Reductions Sys2Proof.Transcendentals

variable {s t u w : State} {cs : List Cond} {a : Approx} {i : Instr} {q : Option FarPtr} {p : List Prefix} {f : Trig}
  {d : Option Dest} {v v' : Ext}

/-! ### The end of a delivery -/

theorem c2_writeTo (u : State) (d : Option Dest) (v : Ext) : (writeTo d v u).sw.c2 = u.sw.c2 := by
  cases d with
  | none => rfl
  | some d =>
    change (u.writeDest d v).sw.c2 = _
    unfold State.writeDest; split <;> rfl

/-- The reports of a state that has the same conditions behind it. -/
theorem reports_of_flagged (h : Flagged cs s t) (h' : Flagged cs s w) (c1 : t.sw.c1 = w.sw.c1) : Reports w t :=
  ⟨h.flags.trans h'.flags.symm, h.es.trans h'.es.symm, h.busy.trans h'.busy.symm, c1, h.ferr.trans h'.ferr.symm⟩

/-- A value delivered and written, said of any other run that has reported the same. -/
theorem completes_deliverT (plain : Plain i q s) (hc : s.pending = .clear) (h : Reported cs s u) (h' : Reported cs s w)
    (run : exec i s = finish i (.ok (writeTo d (deliverT a u).2 (deliverT a u).1))) :
    Completes i s fun t =>
      Ran i q s t ∧ MemKept s t ∧ t.sw.c2 = u.sw.c2 ∧ DeliveredTo d (deliverT a w).2 s t ∧ Reports (deliverT a w).1 t := by
  obtain ⟨ran, mem⟩ := plain.frame hc run
  obtain ⟨ds, same⟩ := deliverT_as a h h'
  refine ⟨_, run, ran, mem, (c2_writeTo ..).trans same.c2, ?_, ?_⟩
  · rw [← same.value]
    exact deliveredTo same.reported d _ _
  · exact reports_of_flagged (((sameFlags_writeTo ..).advance _).flagged same.reported.flagged) same.twin.flagged
      ((c1_writeTo ..).trans same.c1)

/-- Two results, the second pushed. -/
theorem completes_writePush (plain : Plain i q s) (hc : s.pending = .clear) (h : Reported cs s u)
    (run : exec i s = finish i (.ok (u.writePush v v'))) :
    Completes i s fun t =>
      Ran i q s t ∧ MemKept s t ∧ t.sw.c2 = u.sw.c2 ∧ t.sw.c1 = u.sw.c1 ∧ WrotePushed v v' s t ∧ Flagged cs s t := by
  obtain ⟨ran, mem⟩ := plain.frame hc run
  exact ⟨_, run, ran, mem, rfl, rfl, h.wrotePushed v v' _, ((sameFlags_writePush ..).advance _).flagged h.flagged⟩

/-! ### The classes of the operand (R321) -/

/-- A number in range, or a zero. -/
theorem trigStep_near (finite : isInf (s.st 0#3) = false)
    (near : ¬ (!isZero (s.st 0#3) && decide (63 ≤ exponentOf (valOf (s.st 0#3)))) = true)
    (hd : isDenormal (s.st 0#3) = true → s.masked .d = true) :
    trigStep f (s.stOperand 0#3) (start s i) =
      if isZero (s.st 0#3) then
        .ok (f.onZero (s.st 0#3) ((afterDenormal (isDenormal (s.st 0#3)) ((start s i).setC2 false)).setC1 false))
      else .ok (f.onNumber (s.st 0#3) (afterDenormal (isDenormal (s.st 0#3)) ((start s i).setC2 false))) := by
  unfold trigStep
  refine (if_neg (ne_true_of_eq_false finite)).trans ((if_neg near).trans ?_)
  rw [denormalCheck_masked _ (by rw [any_single, ((reported_start s i).setC2 false).masked]; exact hd), any_single]
  rfl

section
variable (checked : Checked i none [s.stOperand 0#3] d (trigStep f (s.stOperand 0#3)) s)
  (ready : Ready [s.stOperand 0#3] d s)
include checked ready

theorem trig_passes (number : isNumber (s.st 0#3) = true) :
    exec i s = finish i (trigStep f (s.stOperand 0#3) (start s i)) :=
  checked.passes ready (number_st0 number)

theorem trig_inRange (range : InTrigRange (s.st 0#3)) (hd : isDenormal (s.st 0#3) = true → s.masked .d = true) :
    exec i s = finish i (.ok (f.onNumber (s.st 0#3) (afterDenormal (isDenormal (s.st 0#3)) ((start s i).setC2 false)))) := by
  rw [trig_passes checked ready (isNumber_of_finiteNonzero range.1)]
  have near : ¬ (!isZero (s.st 0#3) && decide (63 ≤ exponentOf (valOf (s.st 0#3)))) = true := by
    rw [decide_eq_false (not_le.2 range.2), Bool.and_false]
    exact Bool.false_ne_true
  rw [trigStep_near (isInf_finite range.1) near hd, if_neg (ne_true_of_eq_false (not_zero_of_finiteNonzero range.1))]

theorem trig_far (finite : isFiniteNonzero (s.st 0#3) = true) (far : 63 ≤ exponentOf (valOf (s.st 0#3))) :
    exec i s = finish i (.ok (((start s i).setC2 true).freeC1)) := by
  rw [trig_passes checked ready (isNumber_of_finiteNonzero finite), trigStep]
  have beyond : (!isZero (s.st 0#3) && decide (63 ≤ exponentOf (valOf (s.st 0#3)))) = true := by
    rw [decide_eq_true far, not_zero_of_finiteNonzero finite]
    rfl
  exact congrArg _ ((if_neg (ne_true_of_eq_false (isInf_finite finite))).trans (if_pos beyond))

theorem trig_zero (zero : isZero (s.st 0#3) = true) :
    exec i s = finish i (.ok (f.onZero (s.st 0#3) (((start s i).setC2 false).setC1 false))) := by
  rw [trig_passes checked ready (isNumber_of_isZero zero)]
  have near : ¬ (!isZero (s.st 0#3) && decide (63 ≤ exponentOf (valOf (s.st 0#3)))) = true := by
    rw [zero]
    exact Bool.false_ne_true
  have normal := isDenormal_of_isZero zero
  rw [trigStep_near (Operations.isInf_of_isZero zero) near (fun den => absurd (normal.symm.trans den) Bool.false_ne_true),
    if_pos zero, normal]
  rfl

theorem trig_infinite (inf : isInf (s.st 0#3) = true) :
    exec i s = finish i (.ok ((start s i).respond .ia fun u => f.responses.invalid ((u.setC2 false).setC1 false))) := by
  rw [trig_passes checked ready (isNumber_of_isInf inf), trigStep]
  exact congrArg _ (if_pos inf)

end

/-! ### The four instructions (R321 to R324) -/

/-- What the four instructions share: where their results go, and their results for a zero. -/
structure TrigRow (p : List Prefix) (i : Instr) (pushed : Bool) (f : Trig) (d : Option Dest) (s : State) : Prop where
  checked : Checked i none [s.stOperand 0#3] d (trigStep f (s.stOperand 0#3)) s
  pushes : d.isNone = pushed
  writes : pushed = false → d = some st0
  responses : f.responses = responsesOf d
  onZero : ∀ (v : Ext) (t : State),
    f.onZero v t = if pushed then t.writePush v one else t.setSt 0#3 (if i = .fcos p then one else v)

theorem trigRow {pushed : Bool} (hc : s.pending = .clear)
    (row : (i, pushed) ∈ [(Instr.fsin p, false), (Instr.fcos p, false), (Instr.fptan p, true), (Instr.fsincos p, true)]) :
    ∃ f d, TrigRow p i pushed f d s := by
  simp only [List.mem_cons, Prod.mk.injEq, List.not_mem_nil, or_false] at row
  rcases row with ⟨rfl, rfl⟩ | ⟨rfl, rfl⟩ | ⟨rfl, rfl⟩ | ⟨rfl, rfl⟩
  · exact ⟨sinTrig, some st0, checked_fsin p hc, rfl, fun _ => rfl, rfl, fun v t => by simp [sinTrig]⟩
  · exact ⟨cosTrig, some st0, checked_fcos p hc, rfl, fun _ => rfl, rfl, fun v t => by simp [cosTrig]⟩
  · exact ⟨tanTrig, none, checked_fptan p hc, rfl, nofun, rfl, fun v t => rfl⟩
  · exact ⟨sincosTrig, none, checked_fsincos p hc, rfl, nofun, rfl, fun v t => rfl⟩

theorem TrigRow.ready {pushed : Bool} (h : TrigRow p i pushed f d s) (full : s.stTag 0#3 ≠ .empty)
    (room : pushed = true → s.stTag 7#3 = .empty) : Ready [s.stOperand 0#3] d s :=
  ready_sources (sources := [0#3]) (by simpa using full) fun hd => room (by rw [← h.pushes, hd]; rfl)

theorem deliveredTo_row {pushed : Bool} (h : TrigRow p i pushed f d s) (hd : DeliveredTo d v s t) :
    if pushed then WrotePushed v v s t else Wrote 0#3 v s t := by
  have pushes := h.pushes
  have writes := h.writes
  cases d with
  | none => cases pushes; exact hd
  | some dest =>
    cases pushes
    cases writes rfl
    exact hd

/-- An operand out of range is reported in C2 alone. -/
theorem TrigRow.far {pushed : Bool} (h : TrigRow p i pushed f d s) (hc : s.pending = .clear)
    (ready : Ready [s.stOperand 0#3] d s) (finite : isFiniteNonzero (s.st 0#3) = true)
    (far : 63 ≤ exponentOf (valOf (s.st 0#3))) :
    Completes i s fun t => Ran i none s t ∧ MemKept s t ∧ StackKept s t ∧ t.sw.c2 = true ∧ Flagged [] s t := by
  obtain ⟨t, run, ran, mem, stack, sw, flagged⟩ :=
    completes_kept h.checked.plain hc (((reported_start s i).setC2 true).freeC1) (trig_far h.checked ready finite far)
  exact ⟨t, run, ran, mem, stack, by rw [sw]; rfl, flagged⟩

theorem TrigRow.zero {pushed : Bool} (h : TrigRow p i pushed f d s) (hc : s.pending = .clear)
    (ready : Ready [s.stOperand 0#3] d s) (zero : isZero (s.st 0#3) = true) :
    Completes i s fun t => (Ran i none s t ∧ MemKept s t ∧ t.sw.c2 = false) ∧ t.sw.c1 = false ∧ Flagged [] s t ∧
      if pushed then WrotePushed (s.st 0#3) one s t
      else Wrote 0#3 (if i = .fcos p then one else s.st 0#3) s t := by
  have reported := ((reported_start s i).setC2 false).setC1 false
  have exit := trig_zero h.checked ready zero
  rw [h.onZero] at exit
  cases pushed
  · obtain ⟨ran, mem⟩ := h.checked.plain.frame hc exit
    exact ⟨_, exit, ⟨ran, mem, rfl⟩, rfl, ((sameFlags_setSt ..).advance _).flagged reported.flagged, reported.wrote ..⟩
  · obtain ⟨t, run, ran, mem, c2, c1, wrote, flagged⟩ := completes_writePush h.checked.plain hc reported exit
    exact ⟨t, run, ⟨ran, mem, c2⟩, c1, flagged, wrote⟩

theorem TrigRow.infinite {pushed : Bool} (h : TrigRow p i pushed f d s) (hc : s.pending = .clear)
    (ready : Ready [s.stOperand 0#3] d s) (inf : isInf (s.st 0#3) = true) :
    Responds i none s .ia fun t => t.sw.c2 = false ∧ t.sw.c1 = false ∧
      if pushed then WrotePushed realIndefinite realIndefinite s t else Wrote 0#3 realIndefinite s t := by
  have exit := trig_infinite h.checked ready inf
  rw [h.responses, invalid_responsesOf] at exit
  refine h.checked.plain.responds hc (reported_start s i) exit (fun u => ?_) fun reported => ⟨?_, ?_, ?_⟩
  · have same := sameFlags_writeTo ((u.setC2 false).setC1 false) d realIndefinite
    exact ⟨same.flags, same.es, same.busy, same.ferr⟩
  · exact c2_writeTo ..
  · exact c1_writeTo ..
  · exact deliveredTo_row h (deliveredTo ((reported.setC2 false).setC1 false) d _ _)

/-! ### An operand in range -/

theorem reported_inRange (s : State) (i : Instr) (den : Bool) :
    Reported (resultConds den false) s (afterDenormal den ((start s i).setC2 false)) :=
  reported_afterDenormal ((reported_start s i).setC2 false) den

theorem c2_inRange (s : State) (i : Instr) (den : Bool) : (afterDenormal den ((start s i).setC2 false)).sw.c2 = false := by
  cases den
  · rfl
  · exact (Compares.codes_signal _ _).2.1

/-- FSIN and FCOS. -/
theorem sine_delivers (checked : Checked i none [s.stOperand 0#3] (some st0) (trigStep f (s.stOperand 0#3)) s)
    (hc : s.pending = .clear) (full : s.stTag 0#3 ≠ .empty) (range : InTrigRange (s.st 0#3))
    (hd : isDenormal (s.st 0#3) = true → s.masked .d = true)
    (onNumber : ∀ u, Reported (resultConds (isDenormal (s.st 0#3)) false) s u → f.onNumber (s.st 0#3) u = u.deliverSt0 a) :
    Completes i s fun t => (Ran i none s t ∧ MemKept s t ∧ t.sw.c2 = false) ∧
      Wrote 0#3 (deliverT a (afterDenormal (isDenormal (s.st 0#3)) s)).2 s t ∧
      Reports (deliverT a (afterDenormal (isDenormal (s.st 0#3)) s)).1 t := by
  have reported := reported_inRange s i (isDenormal (s.st 0#3))
  have exit := trig_inRange checked (ready_st0 full _) range hd
  rw [onNumber _ reported] at exit
  obtain ⟨t, run, ran, mem, c2, wrote, reports⟩ := completes_deliverT (d := some st0) (a := a) checked.plain hc reported
    (reported_afterDenormal (reported_refl s) _) exit
  exact ⟨t, run, ⟨ran, mem, c2.trans (c2_inRange ..)⟩, wrote, reports⟩

theorem tangent_delivers (hc : s.pending = .clear) (full : s.stTag 0#3 ≠ .empty) (room : s.stTag 7#3 = .empty)
    (range : InTrigRange (s.st 0#3)) (hd : isDenormal (s.st 0#3) = true → s.masked .d = true) :
    let d := deliverT (s.numerics.tan (argOf (s.st 0#3)) (rcOf s.cw)) (afterDenormal (isDenormal (s.st 0#3)) s)
    Completes (.fptan p) s fun t => (Ran (.fptan p) none s t ∧ MemKept s t ∧ t.sw.c2 = false) ∧
      WrotePushed d.2 one s t ∧ Reports d.1 t := by
  intro d
  have reported := reported_inRange s (.fptan p) (isDenormal (s.st 0#3))
  have checked := checked_fptan p hc
  have exit := trig_inRange checked (ready_sources (sources := [0#3]) (by simpa using full) fun _ => room) range hd
  have onNumber (u : State) (r : Reported (resultConds (isDenormal (s.st 0#3)) false) s u) :
      tanTrig.onNumber (s.st 0#3) u =
        (deliverT (s.numerics.tan (argOf (s.st 0#3)) (rcOf s.cw)) u).1.writePush
          (deliverT (s.numerics.tan (argOf (s.st 0#3)) (rcOf s.cw)) u).2 one := by
    rw [← r.numerics, ← r.rc]
    rfl
  rw [onNumber _ reported] at exit
  obtain ⟨ds, same⟩ := deliverT_as (s.numerics.tan (argOf (s.st 0#3)) (rcOf s.cw)) reported
    (reported_afterDenormal (reported_refl s) (isDenormal (s.st 0#3)))
  obtain ⟨t, run, ran, mem, c2, c1, wrote, flagged⟩ := completes_writePush checked.plain hc same.reported exit
  rw [same.value] at wrote
  exact ⟨t, run, ⟨ran, mem, c2.trans (same.c2.trans (c2_inRange ..))⟩, wrote,
    reports_of_flagged flagged same.twin.flagged (c1.trans same.c1)⟩

theorem sineCosine_delivers (hc : s.pending = .clear) (full : s.stTag 0#3 ≠ .empty) (room : s.stTag 7#3 = .empty)
    (range : InTrigRange (s.st 0#3)) (hd : isDenormal (s.st 0#3) = true → s.masked .d = true) :
    let w := afterDenormal (isDenormal (s.st 0#3)) s
    let x := s.numerics.sin (argOf (s.st 0#3)) (rcOf s.cw)
    let y := s.numerics.cos (argOf (s.st 0#3)) (rcOf s.cw)
    Completes (.fsincos p) s fun t => (Ran (.fsincos p) none s t ∧ MemKept s t ∧ t.sw.c2 = false) ∧
      WrotePushed (deliverT x w).2 (deliverT y w).2 s t ∧
      Reports ((deliverT y (deliverT x w).1).1.setC1 t.sw.c1) t ∧ (x.up = y.up → t.sw.c1 = x.up) := by
  intro w x y
  have reported := reported_inRange s (.fsincos p) (isDenormal (s.st 0#3))
  have reported' : Reported (resultConds (isDenormal (s.st 0#3)) false) s w :=
    reported_afterDenormal (reported_refl s) (isDenormal (s.st 0#3))
  have checked := checked_fsincos p hc
  have exit := trig_inRange checked (ready_sources (sources := [0#3]) (by simpa using full) fun _ => room) range hd
  have onNumber (u : State) (r : Reported (resultConds (isDenormal (s.st 0#3)) false) s u) :
      sincosTrig.onNumber (s.st 0#3) u =
        ((deliverT y (deliverT x u).1).1.setC1 (if x.up = y.up then x.up else Config.freeC1 u.draws)).writePush
          (deliverT x u).2 (deliverT y (deliverT x u).1).2 := by
    change u.sinCos _ = _
    rw [State.sinCos, r.numerics, r.rc]
  rw [onNumber _ reported] at exit
  obtain ⟨ds, sine⟩ := deliverT_as x reported reported'
  obtain ⟨es, cosine⟩ := deliverT_as y sine.reported sine.twin
  obtain ⟨t, run, ran, mem, c2, c1, wrote, flagged⟩ := completes_writePush checked.plain hc (cosine.reported.setC1 _) exit
  rw [sine.value, deliverT_value (sine.reported.cw.trans reported'.cw.symm)] at wrote
  exact ⟨t, run, ⟨ran, mem, c2.trans (cosine.c2.trans (sine.c2.trans (c2_inRange ..)))⟩, wrote,
    reports_of_flagged flagged (cosine.twin.setC1 _).flagged rfl, fun same => c1.trans (if_pos same)⟩

/-- Settles O48: NUMERICS is delivered in range; the other operands are answered by their class. -/
theorem trigonometricDeliver : Obligations.TrigonometricDeliver := by
  intro p s hc full v u x y z ends
  refine ⟨fun range hd => ⟨?_, ?_, fun room => ⟨tangent_delivers hc full room range hd, ?_⟩⟩, fun i pushed row room => ?_⟩
  · exact sine_delivers (checked_fsin p hc) hc full range hd fun u r => by
      change u.deliverSt0 (u.numerics.sin _ _) = _
      rw [r.numerics, r.rc]
  · exact sine_delivers (checked_fcos p hc) hc full range hd fun u r => by
      change u.deliverSt0 (u.numerics.cos _ _) = _
      rw [r.numerics, r.rc]
  · exact sineCosine_delivers hc full room range hd
  · obtain ⟨f, d, h⟩ := trigRow hc row
    have ready := h.ready full room
    exact ⟨h.far hc ready, h.zero hc ready, h.infinite hc ready⟩

end Sys2Proof.Trigonometry


/-! PROOFS. The arctangent, the logarithms and the exponential (R325, R327 to R329): what each pair of operands leaves. -/

namespace Sys2Proof.Logarithms

open Sys2Proof Sys2Proof.Machine Sys2Proof.DataTransfer Sys2Proof.BasicArithmetic Sys2Proof.Running Sys2Proof.Delivery
open Sys2Proof.Arithmetic Sys2Proof.Fields Sys2Proof.RegisterOps Sys2Proof.Responses Sys2Proof.Stops
open Sys2Proof.Reductions Sys2Proof.Transcendentals Sys2Proof.Trigonometry Sys2Proof.Operations Sys2Proof.FormatsNumerics

variable {s t u w : State} {cs : List Cond} {a : Approx} {i : Instr} {q : Option FarPtr} {p : List Prefix} {f : Trig}
  {d : Option Dest} {v v' x y : Ext}

/-! ### Comparisons with one -/

theorem ratOf_one : ratOf one = 1 := by
  have value : valOf one = { neg := false, n := 2 ^ 63, k := -63 } := by decide
  rw [ratOf, value, Sys2Proof.Num.toRat]
  norm_num

theorem cmpOne_finite (h : isInf x = false) : cmpExt x one = relationOf (compare (ratOf x) 1) := by
  rw [cmpExt_eq h (by decide), ratOf_one]

theorem cmpOne_zero (h : isZero x = true) : cmpExt x one = .less := by
  rw [eq_zero_of_isZero h]
  cases signOf x <;> decide

theorem cmpOne_infinite (h : isInf x = true) : cmpExt x one = if signOf x then .less else .greater := by
  rw [eq_infinity_of_isInf h, signOf_infinity]
  cases signOf x <;> decide

theorem ratOf_nonpos (h : signOf x = true) : ratOf x ≤ 0 := by
  have value : ratOf x = -((valOf x).n * (2 : ℚ) ^ (valOf x).k) := by
    rw [ratOf, Sys2Proof.Num.toRat, show (valOf x).neg = true from h, if_pos rfl]
    ring
  rw [value, neg_nonpos]
  positivity

/-- A number that is not below one is positive. -/
theorem positive_of_cmpOne (finite : isInf x = false) (h : cmpExt x one ≠ .less) : signOf x = false := by
  rw [cmpOne_finite finite, relation_ne_less] at h
  by_contra negative
  have := ratOf_nonpos (Bool.eq_true_of_not_eq_false negative)
  linarith

theorem finite_of_cmpOne_equal (h : cmpExt x one = .equal) : isInf x = false := by
  by_contra inf
  rw [cmpOne_infinite (Bool.eq_true_of_not_eq_false inf)] at h
  split at h <;> cases h

theorem not_zero_of_cmpOne (h : cmpExt x one ≠ .less) : isZero x = false := by
  by_contra zero
  exact h (cmpOne_zero (Bool.eq_true_of_not_eq_false zero))

/-! ### Two operands (R172) -/

/-- The state of a two-operand instruction once its denormal operands are reported. -/
abbrev pairStart (s : State) (i : Instr) : State := afterDenormal (isDenormal (s.st 0#3) || isDenormal (s.st 1#3)) (start s i)

theorem reported_pairStart (s : State) (i : Instr) :
    Reported (resultConds (isDenormal (s.st 0#3) || isDenormal (s.st 1#3)) false) s (pairStart s i) :=
  reported_afterDenormal (reported_start s i) _

theorem denormalCheck_st1_st0 (go : State → Except Refusal State)
    (hd : (isDenormal (s.st 0#3) || isDenormal (s.st 1#3)) = true → s.masked .d = true) :
    denormalCheck [s.stOperand 1#3, s.stOperand 0#3] go (start s i) = go (pairStart s i) := by
  have swap : ((s.stOperand 1#3).denormal || (s.stOperand 0#3).denormal) = (isDenormal (s.st 0#3) || isDenormal (s.st 1#3)) :=
    Bool.or_comm ..
  rw [denormalCheck_pair go (by rw [swap]; exact hd), checkedStart, swap]

theorem ready_st1_st0 (h0 : s.stTag 0#3 ≠ .empty) (h1 : s.stTag 1#3 ≠ .empty) (dest : Dest) :
    Ready [s.stOperand 1#3, s.stOperand 0#3] (some dest) s :=
  ready_pair (stEmpty_eq_false h1) (stEmpty_eq_false h0)

/-- Two numbers pass the checks of a two-operand instruction. -/
theorem pair_passes {go : State → Except Refusal State}
    (checked : Checked i none [s.stOperand 1#3, s.stOperand 0#3] (some st1Pop) go s)
    (h0 : s.stTag 0#3 ≠ .empty) (h1 : s.stTag 1#3 ≠ .empty) (nx : isNumber (s.st 0#3) = true)
    (ny : isNumber (s.st 1#3) = true) : exec i s = finish i (go (start s i)) :=
  checked.passes (ready_st1_st0 h0 h1 st1Pop) (numbers_pair ny nx)

/-- A NUMERICS value delivered to ST(1), with the pop. -/
theorem delivers_pair (plain : Plain i none s) (hc : s.pending = .clear)
    (run : exec i s = finish i (.ok ((pairStart s i).deliverDest st1Pop a))) :
    Completes i s fun t => Ran i none s t ∧ MemKept s t ∧
      WrotePopped 1#3 (deliverT a (afterDenormal (isDenormal (s.st 0#3) || isDenormal (s.st 1#3)) s)).2 s t ∧
      Reports (deliverT a (afterDenormal (isDenormal (s.st 0#3) || isDenormal (s.st 1#3)) s)).1 t := by
  obtain ⟨t, run, ran, mem, -, wrote, reports⟩ := completes_deliverT (d := some st1Pop) (a := a) plain hc
    (reported_pairStart s i) (reported_afterDenormal (reported_refl s) _) run
  exact ⟨t, run, ran, mem, wrote, reports⟩

theorem inXp1Domain_iff {P : Params} : inXp1Domain P x = true ↔
    isInf x = false ∧ cmpExt x (negate one) = .greater ∧ cmpExt x P.xp1Low ≠ .less ∧ cmpExt x P.xp1High ≠ .greater := by
  simp [inXp1Domain, and_assoc]

/-- FYL2XP1 of a pair that is not invalid. -/
theorem log1pStep_accepted (hd : (isDenormal (s.st 0#3) || isDenormal (s.st 1#3)) = true → s.masked .d = true)
    (above : cmpExt (s.st 0#3) (negate one) ≠ .less) (valid : ¬ (isZero (s.st 0#3) = true ∧ isInf (s.st 1#3) = true)) :
    log1pStep (s.stOperand 1#3) (s.stOperand 0#3) (start s i) =
      if !inXp1Domain s.params (s.st 0#3) then
        .ok ((pairStart s i).freeC1.writeDest st1Pop (Config.freeExt (pairStart s i).draws))
      else if isZero (s.st 0#3) || isZero (s.st 1#3) then
        .ok ((pairStart s i).exactDest st1Pop (zero (signOf (s.st 0#3) ^^ signOf (s.st 1#3))))
      else if isInf (s.st 1#3) then
        .ok ((pairStart s i).exactDest st1Pop (infinity (signOf (s.st 0#3) ^^ signOf (s.st 1#3))))
      else
        .ok ((pairStart s i).deliverDest st1Pop
          ((pairStart s i).numerics.ylog2xp1 (argOf (s.st 1#3)) (argOf (s.st 0#3)) (rcOf (pairStart s i).cw))) := by
  have accepted : ¬ (cmpExt (s.st 0#3) (negate one) == .less || (isZero (s.st 0#3) && isInf (s.st 1#3))) = true := by
    rw [Bool.or_eq_true, beq_iff_eq, Bool.and_eq_true]
    exact not_or.2 ⟨above, valid⟩
  unfold log1pStep
  refine (if_neg accepted).trans ?_
  rw [denormalCheck_st1_st0 _ hd, ← (reported_pairStart s i).params]
  rfl

section
variable (fx : isFiniteNonzero (s.st 0#3) = true) (fy : isFiniteNonzero (s.st 1#3) = true)
  (hd : (isDenormal (s.st 0#3) || isDenormal (s.st 1#3)) = true → s.masked .d = true)
include fx fy hd

theorem atanStep_number : atanStep (s.stOperand 1#3) (s.stOperand 0#3) (start s i) =
    .ok ((pairStart s i).deliverDest st1Pop (s.numerics.atan2 (argOf (s.st 1#3)) (argOf (s.st 0#3)) (rcOf s.cw))) := by
  have special (t : State) : t.atanSpecial (s.stOperand 1#3).val (s.stOperand 0#3).val st1Pop = none := by
    simp [State.atanSpecial, State.stOperand, not_zero_of_finiteNonzero fx, not_zero_of_finiteNonzero fy, isInf_finite fx,
      isInf_finite fy]
  rw [atanStep, denormalCheck_st1_st0 _ hd, special, ← (reported_pairStart s i).numerics, ← (reported_pairStart s i).rc]
  rfl

theorem logStep_number (positive : signOf (s.st 0#3) = false) (ne : cmpExt (s.st 0#3) one ≠ .equal) :
    logStep (s.stOperand 1#3) (s.stOperand 0#3) (start s i) =
      .ok ((pairStart s i).deliverDest st1Pop (s.numerics.ylog2x (argOf (s.st 1#3)) (argOf (s.st 0#3)) (rcOf s.cw))) := by
  have zx := not_zero_of_finiteNonzero fx
  have zy := not_zero_of_finiteNonzero fy
  have ix := isInf_finite fx
  have iy := isInf_finite fy
  have invalid : logInvalid (s.st 1#3) (s.st 0#3) = false := by simp [logInvalid, positive, zx, ix, iy]
  have divide : (isZero (s.st 0#3) && !isInf (s.st 1#3)) = false := by rw [zx, Bool.false_and]
  have special : logExact (s.st 1#3) (s.st 0#3) = none := by
    simp only [logExact, zx, ix, iy, zy, Bool.false_eq_true, if_false]
    cases relation : cmpExt (s.st 0#3) one
    case equal => exact absurd relation ne
    all_goals rfl
  unfold logStep
  refine (if_neg (ne_true_of_eq_false invalid)).trans ((if_neg (ne_true_of_eq_false divide)).trans ?_)
  rw [denormalCheck_st1_st0 _ hd, ← (reported_pairStart s i).numerics, ← (reported_pairStart s i).rc]
  change (match logExact (s.st 1#3) (s.st 0#3) with | some v => _ | none => _) = _
  rw [special]
  rfl

theorem log1pStep_number (inside : inXp1Domain s.params (s.st 0#3) = true) :
    log1pStep (s.stOperand 1#3) (s.stOperand 0#3) (start s i) =
      .ok ((pairStart s i).deliverDest st1Pop (s.numerics.ylog2xp1 (argOf (s.st 1#3)) (argOf (s.st 0#3)) (rcOf s.cw))) := by
  obtain ⟨-, above, -, -⟩ := inXp1Domain_iff.1 inside
  rw [log1pStep_accepted hd (by rw [above]; nofun) fun h => ne_true_of_eq_false (not_zero_of_finiteNonzero fx) h.1, inside,
    not_zero_of_finiteNonzero fx, not_zero_of_finiteNonzero fy, isInf_finite fy, ← (reported_pairStart s i).numerics,
    ← (reported_pairStart s i).rc]
  rfl

end

/-- The state of an instruction on ST(0) once a denormal operand is reported. -/
abbrev singleStart (s : State) (i : Instr) : State := afterDenormal (isDenormal (s.st 0#3)) (start s i)

theorem exp2m1Step_eq (hd : isDenormal (s.st 0#3) = true → s.masked .d = true) :
    exp2m1Step (s.stOperand 0#3) (start s i) =
      if cmpExt (magnitude (s.st 0#3)) one = .greater then
        .ok ((singleStart s i).freeC1.setSt 0#3 (Config.freeExt (singleStart s i).draws))
      else if isZero (s.st 0#3) then .ok ((singleStart s i).exactDest st0 (s.st 0#3))
      else .ok ((singleStart s i).deliverSt0 (s.numerics.exp2m1 (argOf (s.st 0#3)) (rcOf s.cw))) := by
  have r : Reported (resultConds (isDenormal (s.st 0#3)) false) s (singleStart s i) :=
    reported_afterDenormal (reported_start s i) _
  rw [exp2m1Step, denormalCheck_st0 hd, ← r.numerics, ← r.rc]
  simp only [beq_iff_eq]
  rfl

/-- Settles O50: NUMERICS is delivered where no table gives the result. -/
theorem logarithmAndExponentialDeliver : Obligations.LogarithmAndExponentialDeliver := by
  intro p s hc h0 fx x y rc delivers
  have nx := isNumber_of_finiteNonzero fx
  refine ⟨fun h1 fy hd => ?_, fun below hd => ?_⟩
  · intro u
    have ny := isNumber_of_finiteNonzero fy
    refine ⟨delivers_pair (checked_fpatan p hc).plain hc ?_, fun sx ne => delivers_pair (checked_fyl2x p hc).plain hc ?_,
      fun inside => delivers_pair (checked_fyl2xp1 p hc).plain hc ?_⟩
    · rw [pair_passes (checked_fpatan p hc) h0 h1 nx ny, atanStep_number fx fy hd]
    · rw [pair_passes (checked_fyl2x p hc) h0 h1 nx ny, logStep_number fx fy hd sx ne]
    · rw [pair_passes (checked_fyl2xp1 p hc) h0 h1 nx ny, log1pStep_number fx fy hd inside]
  · have exit := (checked_f2xm1 p hc).passes (ready_st0 h0 _) (number_st0 nx)
    rw [exp2m1Step_eq hd, if_neg below, if_neg (ne_true_of_eq_false (not_zero_of_finiteNonzero fx))] at exit
    obtain ⟨t, run, ran, mem, -, wrote, reports⟩ := completes_deliverT (d := some st0) (checked_f2xm1 p hc).plain hc
      (reported_afterDenormal (reported_start s _) _) (reported_afterDenormal (reported_refl s) _) exit
    exact ⟨t, run, ran, mem, wrote, reports⟩

/-! ### Special operands -/

section
variable (hd : (isDenormal (s.st 0#3) || isDenormal (s.st 1#3)) = true → s.masked .d = true)
include hd

theorem atanStep_special (h : (pairStart s i).atanSpecial (s.st 1#3) (s.st 0#3) st1Pop = some u) :
    atanStep (s.stOperand 1#3) (s.stOperand 0#3) (start s i) = .ok u := by
  rw [atanStep, denormalCheck_st1_st0 _ hd]
  change (match (pairStart s i).atanSpecial (s.st 1#3) (s.st 0#3) st1Pop with | some u => _ | none => _) = _
  rw [h]

theorem logStep_special (valid : logInvalid (s.st 1#3) (s.st 0#3) = false)
    (divide : (isZero (s.st 0#3) && !isInf (s.st 1#3)) = false) (h : logExact (s.st 1#3) (s.st 0#3) = some v) :
    logStep (s.stOperand 1#3) (s.stOperand 0#3) (start s i) = .ok ((pairStart s i).exactDest st1Pop v) := by
  unfold logStep
  refine (if_neg (ne_true_of_eq_false valid)).trans ((if_neg (ne_true_of_eq_false divide)).trans ?_)
  rw [denormalCheck_st1_st0 _ hd]
  change (match logExact (s.st 1#3) (s.st 0#3) with | some v => _ | none => _) = _
  rw [h]

end

theorem exact_pair (plain : Plain i none s) (hc : s.pending = .clear)
    (run : exec i s = finish i (.ok ((pairStart s i).exactDest st1Pop v))) :
    Completes i s fun t => Ran i none s t ∧ MemKept s t ∧ WrotePopped 1#3 v s t ∧ t.sw.c1 = false ∧
      Flagged (resultConds (isDenormal (s.st 0#3) || isDenormal (s.st 1#3)) false) s t :=
  completes_writeTo (d := some st1Pop) plain hc ((reported_pairStart s i).setC1 false) run

theorem invalid_pair (plain : Plain i none s) (hc : s.pending = .clear)
    (run : exec i s = finish i (.ok ((start s i).invalidDest st1Pop))) :
    Responds i none s .ia fun t => WrotePopped 1#3 realIndefinite s t ∧ t.sw.c1 = false :=
  responds_writeTo (d := some st1Pop) plain hc (reported_start s i) run

/-- A multiple of the 66-bit pi lies inside the exponent range. -/
theorem pi_inRange {neg : Bool} {num e : Nat} (h : (num, e) ∈ [(1, 0), (1, 1), (1, 2), (3, 2)]) (rc : RoundMode) :
    InRange fmtExt (roundP { neg := neg, mag := .ratio (num * pi66) 1 (-64 - e) } 64 rc) := by
  have floor : (Mag.ratio (num * pi66) 1 (-64 - e)).floorLog2 ∈ [1, 0, -1] := by
    simp only [List.mem_cons, Prod.mk.injEq, List.not_mem_nil, or_false] at h
    rcases h with ⟨rfl, rfl⟩ | ⟨rfl, rfl⟩ | ⟨rfl, rfl⟩ | ⟨rfl, rfl⟩ <;> decide
  have positive : 0 < num * pi66 := by
    simp only [List.mem_cons, Prod.mk.injEq, List.not_mem_nil, or_false] at h
    rcases h with ⟨rfl, rfl⟩ | ⟨rfl, rfl⟩ | ⟨rfl, rfl⟩ | ⟨rfl, rfl⟩ <;> decide
  obtain ⟨lo, hi⟩ := Roots.exponent_ratio (neg := neg) (p := 64) (-64 - e : Int) rc positive Nat.one_pos (by decide)
  simp only [List.mem_cons, List.not_mem_nil, or_false] at floor
  constructor
  · change (-16382 : Int) ≤ _; omega
  · change _ ≤ (16383 : Int); omega

/-- A rounded result in range delivered to ST(1), with the pop. -/
theorem rounded_pair {x : Exact} (plain : Plain i none s) (hc : s.pending = .clear)
    (inside : InRange fmtExt (roundP x 64 (rcOf s.cw)))
    (run : exec i s = finish i (.ok (writeTo (some st1Pop) (deliverReg 64 x (pairStart s i)).2
      (deliverReg 64 x (pairStart s i)).1))) :
    Completes i s fun t => Ran i none s t ∧ MemKept s t ∧
      WrotePopped 1#3 (extOfNum { neg := x.neg, n := (roundP x 64 (rcOf s.cw)).n, k := (roundP x 64 (rcOf s.cw)).q }) s t ∧
      t.sw.c1 = (roundP x 64 (rcOf s.cw)).up ∧
      Flagged (resultConds (isDenormal (s.st 0#3) || isDenormal (s.st 1#3)) (roundP x 64 (rcOf s.cw)).inexact) s t := by
  have reported := reported_pairStart s i
  have delivers := deliver_inRange (u := pairStart s i) (toMem := false) (by rw [reported.rc]; exact inside)
  rw [reported.rc] at delivers
  have ends := completes_deliverReg (d := some st1Pop) plain hc run delivers (reported_result reported _ _)
  rwa [c1_reportInexact up_of_exact_roundP] at ends

theorem angle_pair {neg : Bool} {num e : Nat} (h : (num, e) ∈ [(1, 0), (1, 1), (1, 2), (3, 2)]) (plain : Plain i none s)
    (hc : s.pending = .clear) (run : exec i s = finish i (.ok ((pairStart s i).piDest st1Pop neg num e))) :
    let r := roundP { neg := neg, mag := .ratio (num * pi66) 1 (-64 - e) } 64 (rcOf s.cw)
    Completes i s fun t => Ran i none s t ∧ MemKept s t ∧
      WrotePopped 1#3 (extOfNum { neg := neg, n := r.n, k := r.q }) s t ∧ t.sw.c1 = r.up ∧
      Flagged (resultConds (isDenormal (s.st 0#3) || isDenormal (s.st 1#3)) r.inexact) s t :=
  rounded_pair (x := { neg := neg, mag := .ratio (num * pi66) 1 (-64 - e) }) plain hc (pi_inRange h _) run

section
variable (hc : s.pending = .clear) (h0 : s.stTag 0#3 ≠ .empty) (h1 : s.stTag 1#3 ≠ .empty)
  (nx : isNumber (s.st 0#3) = true) (ny : isNumber (s.st 1#3) = true)
include hc h0 h1 nx ny

theorem fpatan_exact (hd : (isDenormal (s.st 0#3) || isDenormal (s.st 1#3)) = true → s.masked .d = true)
    (h : ∀ t : State, t.atanSpecial (s.st 1#3) (s.st 0#3) st1Pop = some (t.exactDest st1Pop v)) :
    Completes (.fpatan p) s fun t => Ran (.fpatan p) none s t ∧ MemKept s t ∧ WrotePopped 1#3 v s t ∧ t.sw.c1 = false ∧
      Flagged (resultConds (isDenormal (s.st 0#3) || isDenormal (s.st 1#3)) false) s t :=
  exact_pair (checked_fpatan p hc).plain hc
    ((pair_passes (checked_fpatan p hc) h0 h1 nx ny).trans (congrArg _ (atanStep_special hd (h _))))

theorem fpatan_angle {num e : Nat} (hd : (isDenormal (s.st 0#3) || isDenormal (s.st 1#3)) = true → s.masked .d = true)
    (quarter : (num, e) ∈ [(1, 0), (1, 1), (1, 2), (3, 2)])
    (h : ∀ t : State, t.atanSpecial (s.st 1#3) (s.st 0#3) st1Pop = some (t.piDest st1Pop (signOf (s.st 1#3)) num e)) :
    let r := roundP { neg := signOf (s.st 1#3), mag := .ratio (num * pi66) 1 (-64 - e) } 64 (rcOf s.cw)
    Completes (.fpatan p) s fun t => Ran (.fpatan p) none s t ∧ MemKept s t ∧
      WrotePopped 1#3 (extOfNum { neg := signOf (s.st 1#3), n := r.n, k := r.q }) s t ∧ t.sw.c1 = r.up ∧
      Flagged (resultConds (isDenormal (s.st 0#3) || isDenormal (s.st 1#3)) r.inexact) s t :=
  angle_pair quarter (checked_fpatan p hc).plain hc
    ((pair_passes (checked_fpatan p hc) h0 h1 nx ny).trans (congrArg _ (atanStep_special hd (h _))))

theorem fyl2x_exact (hd : (isDenormal (s.st 0#3) || isDenormal (s.st 1#3)) = true → s.masked .d = true)
    (valid : logInvalid (s.st 1#3) (s.st 0#3) = false) (divide : (isZero (s.st 0#3) && !isInf (s.st 1#3)) = false)
    (h : logExact (s.st 1#3) (s.st 0#3) = some v) :
    Completes (.fyl2x p) s fun t => Ran (.fyl2x p) none s t ∧ MemKept s t ∧ WrotePopped 1#3 v s t ∧ t.sw.c1 = false ∧
      Flagged (resultConds (isDenormal (s.st 0#3) || isDenormal (s.st 1#3)) false) s t :=
  exact_pair (checked_fyl2x p hc).plain hc
    ((pair_passes (checked_fyl2x p hc) h0 h1 nx ny).trans (congrArg _ (logStep_special hd valid divide h)))

theorem fyl2x_invalid (h : logInvalid (s.st 1#3) (s.st 0#3) = true) :
    Responds (.fyl2x p) none s .ia fun t => WrotePopped 1#3 realIndefinite s t ∧ t.sw.c1 = false :=
  invalid_pair (checked_fyl2x p hc).plain hc
    ((pair_passes (checked_fyl2x p hc) h0 h1 nx ny).trans (congrArg _ (if_pos h)))

/-- The logarithm of a zero is a zero divide. -/
theorem fyl2x_zero (zx : isZero (s.st 0#3) = true) (fy : isFiniteNonzero (s.st 1#3) = true) :
    Responds (.fyl2x p) none s .z fun t =>
      WrotePopped 1#3 (infinity (!signOf (s.st 1#3))) s t ∧ t.sw.c1 = false := by
  have valid : logInvalid (s.st 1#3) (s.st 0#3) = false := by
    simp [logInvalid, zx, isInf_of_isZero zx, isInf_finite fy, not_zero_of_finiteNonzero fy]
  have divide : (isZero (s.st 0#3) && !isInf (s.st 1#3)) = true := by rw [zx, isInf_finite fy]; rfl
  exact responds_writeTo (d := some st1Pop) (checked_fyl2x p hc).plain hc (reported_start s _)
    ((pair_passes (checked_fyl2x p hc) h0 h1 nx ny).trans
      (congrArg _ ((if_neg (ne_true_of_eq_false valid)).trans (if_pos divide))))

theorem fyl2xp1_invalid
    (h : cmpExt (s.st 0#3) (negate one) = .less ∨ isZero (s.st 0#3) = true ∧ isInf (s.st 1#3) = true) :
    Responds (.fyl2xp1 p) none s .ia fun t => WrotePopped 1#3 realIndefinite s t ∧ t.sw.c1 = false := by
  have invalid : (cmpExt (s.st 0#3) (negate one) == .less || (isZero (s.st 0#3) && isInf (s.st 1#3))) = true := by
    rwa [Bool.or_eq_true, beq_iff_eq, Bool.and_eq_true]
  exact invalid_pair (checked_fyl2xp1 p hc).plain hc
    ((pair_passes (checked_fyl2xp1 p hc) h0 h1 nx ny).trans (congrArg _ (if_pos invalid)))

theorem fyl2xp1_exact (hd : (isDenormal (s.st 0#3) || isDenormal (s.st 1#3)) = true → s.masked .d = true)
    (inside : inXp1Domain s.params (s.st 0#3) = true) (valid : ¬ (isZero (s.st 0#3) = true ∧ isInf (s.st 1#3) = true))
    (h : (if isZero (s.st 0#3) || isZero (s.st 1#3) then some (zero (signOf (s.st 0#3) ^^ signOf (s.st 1#3)))
      else if isInf (s.st 1#3) then some (infinity (signOf (s.st 0#3) ^^ signOf (s.st 1#3))) else none) = some v) :
    Completes (.fyl2xp1 p) s fun t => Ran (.fyl2xp1 p) none s t ∧ MemKept s t ∧ WrotePopped 1#3 v s t ∧
      t.sw.c1 = false ∧ Flagged (resultConds (isDenormal (s.st 0#3) || isDenormal (s.st 1#3)) false) s t := by
  obtain ⟨-, above, -, -⟩ := inXp1Domain_iff.1 inside
  have exit := pair_passes (checked_fyl2xp1 p hc) h0 h1 nx ny
  rw [log1pStep_accepted hd (by rw [above]; nofun) valid, inside] at exit
  refine exact_pair (checked_fyl2xp1 p hc).plain hc (exit.trans (congrArg _ ?_))
  refine (if_neg (by decide : ¬ (!true) = true)).trans ?_
  split_ifs at h ⊢ <;> cases h <;> rfl

theorem fyl2xp1_undefined (hd : (isDenormal (s.st 0#3) || isDenormal (s.st 1#3)) = true → s.masked .d = true)
    (above : cmpExt (s.st 0#3) (negate one) ≠ .less) (outside : inXp1Domain s.params (s.st 0#3) = false)
    (valid : ¬ (isZero (s.st 0#3) = true ∧ isInf (s.st 1#3) = true)) :
    Completes (.fyl2xp1 p) s fun t => Ran (.fyl2xp1 p) none s t ∧ MemKept s t ∧ (∃ v, WrotePopped 1#3 v s t) ∧
      Flagged (resultConds (isDenormal (s.st 0#3) || isDenormal (s.st 1#3)) false) s t := by
  have exit := pair_passes (checked_fyl2xp1 p hc) h0 h1 nx ny
  rw [log1pStep_accepted hd above valid, outside] at exit
  obtain ⟨t, run, ran, mem, wrote, -, flagged⟩ :=
    completes_writeTo (d := some st1Pop) (checked_fyl2xp1 p hc).plain hc (reported_pairStart s _).freeC1 exit
  exact ⟨t, run, ran, mem, ⟨_, wrote⟩, flagged⟩

end

/-! ### F2XM1 -/

theorem magnitude_zero (h : isZero (s.st 0#3) = true) : cmpExt (magnitude (s.st 0#3)) one ≠ .greater := by
  rw [eq_zero_of_isZero h]
  cases signOf (s.st 0#3) <;> decide

theorem getLsbD_magnitude (v : Ext) (j : Nat) : (magnitude v).getLsbD j = (v.getLsbD j && decide (j ≠ 79)) := by
  have bit (h : j < 80) : (~~~(1#80 <<< 79)).getLsbD j = decide (j ≠ 79) :=
    (by decide : ∀ j < 80, (~~~(1#80 <<< 79)).getLsbD j = decide (j ≠ 79)) j h
  rw [magnitude, BitVec.getLsbD_and]
  by_cases h : j < 80
  · rw [bit h]
  · rw [BitVec.getLsbD_of_ge v _ (by omega), Bool.false_and, Bool.false_and]

theorem expOf_magnitude (v : Ext) : expOf (magnitude v) = expOf v := by
  refine BitVec.eq_of_getLsbD_eq fun j hj => ?_
  simp only [expOf, BitVec.getLsbD_extractLsb', getLsbD_magnitude]
  simp [show 64 + j ≠ 79 by omega]

theorem sigOf_magnitude (v : Ext) : sigOf (magnitude v) = sigOf v := by
  refine BitVec.eq_of_getLsbD_eq fun j hj => ?_
  simp only [sigOf, BitVec.getLsbD_extractLsb', getLsbD_magnitude]
  simp [show j ≠ 79 by omega]

/-- A denormal lies within -1 to +1. -/
theorem magnitude_denormal (h : isDenormal x = true) : cmpExt (magnitude x) one ≠ .greater := by
  obtain ⟨exp, sig⟩ := isDenormal_iff.1 h
  rw [← expOf_magnitude] at exp
  rw [← sigOf_magnitude] at sig
  have finite := isInf_finite (finiteNonzero_of_isDenormal (isDenormal_iff.2 ⟨exp, sig⟩))
  rw [cmpOne_finite finite, relation_ne_greater]
  have k : (valOf (magnitude x)).k = -16445 := by
    change ((max (expOf (magnitude x)).toNat 1 : Nat) : Int) - 16446 = _
    rw [exp]; rfl
  have small : ((valOf (magnitude x)).n : ℚ) ≤ 2 ^ (64 : Int) := by
    exact_mod_cast (sigOf (magnitude x)).isLt.le
  refine (le_abs_self _).trans ?_
  rw [ratOf, Remainders.abs_toRat, k]
  calc ((valOf (magnitude x)).n : ℚ) * 2 ^ (-16445 : Int) ≤ 2 ^ (64 : Int) * 2 ^ (-16445 : Int) :=
        mul_le_mul_of_nonneg_right small (zpow_nonneg zero_le_two _)
    _ = 2 ^ (-16381 : Int) := (zpow_add₀ two_ne_zero _ _).symm
    _ ≤ 1 := zpow_le_one_of_nonpos₀ one_le_two (by decide)

/-- Settles O51: the tables row by row. -/
theorem logarithmAndExponentialSpecialOperands : Obligations.LogarithmAndExponentialSpecialOperands := by
  intro p s hc h0 nx
  dsimp only
  refine ⟨fun h1 ny => ⟨fun hd => ⟨fun zy => ?_, fun iy ix => ?_, fun iy ix => ?_, fun fy zx => ?_, fun fy ix => ?_,
    fun zx iy => ?_, fun ix px zy => ?_, fun fx px below => ⟨fun iy => ?_, fun zy => ?_⟩, fun fx beyond =>
    ⟨fun iy => ?_, fun zy => ?_⟩, fun unit iy => ?_, fun above => ⟨fun outside valid => ?_, fun inside => ⟨fun zx iy => ?_,
    fun zy => ?_, fun fx iy => ?_⟩⟩⟩, fun invalid => ?_, fun zx fy => ?_, fun invalid => ?_⟩, fun zx => ?_, fun great => ?_⟩
  · split
    · exact fpatan_angle hc h0 h1 nx ny hd (by decide) fun t => by simp [State.atanSpecial, *]
    · exact fpatan_exact hc h0 h1 nx ny hd fun t => by simp [State.atanSpecial, *]
  · have zy := isZero_of_isInf iy
    split
    · exact fpatan_angle hc h0 h1 nx ny hd (by decide) fun t => by simp [State.atanSpecial, *]
    · exact fpatan_angle hc h0 h1 nx ny hd (by decide) fun t => by simp [State.atanSpecial, *]
  · have zy := isZero_of_isInf iy
    exact fpatan_angle hc h0 h1 nx ny hd (by decide) fun t => by simp [State.atanSpecial, *]
  · have iy := isInf_finite fy
    have zy := not_zero_of_finiteNonzero fy
    exact fpatan_angle hc h0 h1 nx ny hd (by decide) fun t => by simp [State.atanSpecial, *]
  · have iy := isInf_finite fy
    have zy := not_zero_of_finiteNonzero fy
    have zx := isZero_of_isInf ix
    split
    · exact fpatan_angle hc h0 h1 nx ny hd (by decide) fun t => by simp [State.atanSpecial, *]
    · exact fpatan_exact hc h0 h1 nx ny hd fun t => by simp [State.atanSpecial, *]
  · have below := cmpOne_zero zx
    have zy := isZero_of_isInf iy
    have ix := isInf_of_isZero zx
    exact fyl2x_exact hc h0 h1 nx ny hd (by simp [logInvalid, *]) (by simp [*]) (by simp [logExact, *])
  · have zx := isZero_of_isInf ix
    have beyond := (cmpOne_infinite ix).trans (if_neg (ne_true_of_eq_false px))
    exact fyl2x_exact hc h0 h1 nx ny hd (by simp [logInvalid, *]) (by simp [*]) (by simp [logExact, *])
  · have zx := not_zero_of_finiteNonzero fx
    have ix := isInf_finite fx
    exact fyl2x_exact hc h0 h1 nx ny hd (by simp [logInvalid, *]) (by simp [*]) (by simp [logExact, *])
  · have zx := not_zero_of_finiteNonzero fx
    have ix := isInf_finite fx
    have iy := isInf_of_isZero zy
    exact fyl2x_exact hc h0 h1 nx ny hd (by simp [logInvalid, *]) (by simp [*]) (by simp [logExact, *])
  · have ix := isInf_finite fx
    have px := positive_of_cmpOne ix (by rw [beyond]; nofun)
    have zx := not_zero_of_finiteNonzero fx
    exact fyl2x_exact hc h0 h1 nx ny hd (by simp [logInvalid, *]) (by simp [*]) (by simp [logExact, *])
  · have ix := isInf_finite fx
    have px := positive_of_cmpOne ix (by rw [beyond]; nofun)
    have zx := not_zero_of_finiteNonzero fx
    have iy := isInf_of_isZero zy
    exact fyl2x_exact hc h0 h1 nx ny hd (by simp [logInvalid, *]) (by simp [*]) (by simp [logExact, *])
  · have ix := finite_of_cmpOne_equal unit
    have px := positive_of_cmpOne ix (by rw [unit]; nofun)
    have zx := not_zero_of_cmpOne (x := s.st 0#3) (by rw [unit]; nofun)
    exact fyl2x_exact hc h0 h1 nx ny hd (by simp [logInvalid, *]) (by simp [*]) (by simp [logExact, *])
  · exact fyl2xp1_undefined hc h0 h1 nx ny hd above outside valid
  · exact fyl2xp1_exact hc h0 h1 nx ny hd inside (by simp [iy]) (by simp [zx])
  · exact fyl2xp1_exact hc h0 h1 nx ny hd inside (by simp [isInf_of_isZero zy]) (by simp [zy])
  · have zx := not_zero_of_finiteNonzero fx
    have zy := isZero_of_isInf iy
    exact fyl2xp1_exact hc h0 h1 nx ny hd inside (by simp [zx]) (by simp [zx, zy, iy])
  · refine fyl2x_invalid hc h0 h1 nx ny ?_
    rcases invalid with ⟨sx, zx⟩ | ⟨zx, zy⟩ | ⟨unit, iy⟩ | ⟨ix, zy⟩
    · simp [logInvalid, sx, zx]
    · simp [logInvalid, zx, zy]
    · simp [logInvalid, unit, iy]
    · have zx := isZero_of_isInf ix
      cases sx : signOf (s.st 0#3) <;> simp [logInvalid, *]
  · exact fyl2x_zero hc h0 h1 nx ny zx fy
  · exact fyl2xp1_invalid hc h0 h1 nx ny invalid
  · have normal := isDenormal_of_isZero zx
    have exit := (checked_f2xm1 p hc).passes (ready_st0 h0 _) (number_st0 nx)
    rw [exp2m1Step_eq (fun den => absurd (normal.symm.trans den) Bool.false_ne_true), if_neg (magnitude_zero zx), if_pos zx,
      singleStart, normal] at exit
    exact completes_writeTo (d := some st0) (checked_f2xm1 p hc).plain hc ((reported_start s _).setC1 false) exit
  · have normal : isDenormal (s.st 0#3) = false := Bool.eq_false_of_not_eq_true fun den => magnitude_denormal den great
    have exit := (checked_f2xm1 p hc).passes (ready_st0 h0 _) (number_st0 nx)
    rw [exp2m1Step_eq (fun den => absurd (normal.symm.trans den) Bool.false_ne_true), if_pos great, singleStart, normal]
      at exit
    obtain ⟨t, run, ran, mem, wrote, -, flagged⟩ := completes_writeTo (d := some st0) (checked_f2xm1 p hc).plain hc
      (reported_start s _).freeC1 exit
    exact ⟨t, run, ran, mem, ⟨_, wrote⟩, flagged⟩

end Sys2Proof.Logarithms


/-! PROOFS. The control instructions without an image (R352 to R361, R369 to R376): FNINIT and FNCLEX, the control and
the status word, and those that move or free the stack or do nothing. -/

namespace Sys2Proof.ControlWords

open Sys2Proof Sys2Proof.Machine Sys2Proof.DataTransfer Sys2Proof.Frames Sys2Proof.Running Sys2Proof.Delivery

variable {s t u : State} {i : Instr} {p : List Prefix} {m : MemForm} {body : Nat → State → State}

/-! ### How a control instruction runs (R46, R351) -/

theorem waiting_clear (hc : s.pending = .clear) (body : State → Result) : s.waiting body = body s := by
  rw [State.waiting, hc]

theorem controlMem_inRange {n : Nat} (hr : s.inRange m n = true) :
    s.controlMem i m n body = .next ((body (s.addr m) s).advance i.length) := if_pos hr

theorem exec_init (h : i = .fninit p ∨ i = .finit p ∧ s.pending = .clear) :
    exec i s = .next (s.initFpu.advance i.length) := by
  rcases h with rfl | ⟨rfl, hc⟩
  · rfl
  · exact waiting_clear hc _

theorem exec_clear (h : i = .fnclex p ∨ i = .fclex p ∧ s.pending = .clear) :
    exec i s = .next (s.clearExceptions.advance i.length) := by
  rcases h with rfl | ⟨rfl, hc⟩
  · rfl
  · exact waiting_clear hc _

theorem exec_loadCw (hc : s.pending = .clear) (hr : s.inRange m 2 = true) :
    exec (.fldcw p m) s =
      .next ((((s.withCw (s.word (s.addr m) 0)).refreshEs.freeCodes).freeC1).advance (Instr.fldcw p m).length) := by
  change execFldcw p m s = _
  rw [execFldcw, waiting_clear hc]
  exact controlMem_inRange hr

theorem exec_storeCw (hc : i.nonWaiting = false → s.pending = .clear) (hr : s.inRange m 2 = true)
    (h : i = .fnstcw p m ∨ i = .fstcw p m) :
    exec i s = .next ((s.store (s.addr m) 2 (cwImage s.cw s.draws).toNat).advance i.length) := by
  rcases h with rfl | rfl
  · change fnstcwBody (.fnstcw p m) m s = _
    exact controlMem_inRange hr
  · change execFstcw p m s = _
    rw [execFstcw, waiting_clear (hc rfl)]
    exact controlMem_inRange hr

theorem exec_storeSw (hc : i.nonWaiting = false → s.pending = .clear) (hr : s.inRange m 2 = true)
    (h : i = .fnstswM16 p m ∨ i = .fstswM16 p m) :
    exec i s = .next ((s.store (s.addr m) 2 s.sw.toBits.toNat).advance i.length) := by
  rcases h with rfl | rfl
  · change fnstswBody (.fnstswM16 p m) m s = _
    exact controlMem_inRange hr
  · change execFstswM16 p m s = _
    rw [execFstswM16, waiting_clear (hc rfl)]
    exact controlMem_inRange hr

theorem exec_storeAx (h : i = .fnstswAx p ∨ i = .fstswAx p ∧ s.pending = .clear) :
    exec i s = .next ((s.setAx s.sw.toBits).advance i.length) := by
  rcases h with rfl | ⟨rfl, hc⟩
  · rfl
  · exact waiting_clear hc _

theorem exec_nothing (h : i = .wait p ∧ s.pending = .clear ∨ i = .feni p ∨ i = .fdisi p ∨ i = .fsetpm p) :
    exec i s = .next (s.advance i.length) := by
  rcases h with ⟨rfl, hc⟩ | rfl | rfl | rfl
  · change execWait p s = _
    exact waiting_clear hc _
  all_goals rfl

/-! ### Initialize and clear (R352, R360) -/

theorem tagWord_init : tagWord (Vector.replicate 8 .empty) = 0xFFFF#16 := by decide

theorem statusWord_init : (StatusWord.ofBits 0#16).toBits = 0#16 := by decide

/-- Settles O53: both forms of each run the one operation. -/
theorem initializeAndClear : Obligations.InitializeAndClear := by
  refine fun p s => ⟨fun i h => ⟨_, exec_init h, ?_⟩, fun i h => ⟨_, exec_clear h, ?_⟩⟩
  · exact ⟨rfl, statusWord_init, tagWord_init, rfl, rfl, rfl, rfl, rfl, fun _ => rfl,
      ⟨rfl, rfl, rfl, rfl, rfl, rfl, rfl, rfl, rfl⟩, rfl⟩
  · exact ⟨⟨⟨rfl, rfl, rfl⟩, rfl, ⟨rfl, rfl, rfl, rfl, rfl, rfl, rfl, rfl, rfl⟩⟩, fun _ => rfl, ⟨rfl, rfl, rfl⟩, rfl, rfl,
      rfl, rfl, rfl⟩

/-! ### The control and the status word (R354 to R359) -/

/-- The defined bits of the control word are stored as they are; all of them after initialization (D11). -/
theorem cwImage_defined (cw : Word16) (draws : Nat) :
    cwImage cw draws &&& 0x1F3F#16 = cw &&& 0x1F3F#16 ∧ (cw = 0x037F#16 → cwImage cw draws = cw) := by
  unfold cwImage
  refine ⟨?_, fun h => if_pos h⟩
  split
  · rfl
  · have apart : 0xE0C0#16 &&& 0x1F3F#16 = 0#16 := by decide
    rw [BitVec.and_or_distrib_right, BitVec.and_assoc, BitVec.and_self, BitVec.and_assoc, apart, BitVec.and_zero,
      BitVec.or_zero]

theorem ranControl_store (s : State) (a n v : Nat) (i : Instr) : RanControl i s ((s.store a n v).advance i.length) :=
  ⟨⟨rfl, rfl, rfl⟩, rfl, ⟨rfl, rfl, rfl, rfl, rfl, rfl, rfl, rfl, rfl⟩⟩

theorem memStored_control (hm : memWf s.mem = true) {a n : Nat} (h : a + n ≤ memEnd) (v k : Nat) :
    MemStored a n v s ((s.store a n v).advance k) := memStored_store rfl hm h v rfl

/-- Settles O54: each moves one word and nothing else. -/
theorem controlAndStatusWordTransfers : Obligations.ControlAndStatusWordTransfers := by
  refine ⟨fun p m s hc hr => ⟨_, exec_loadCw hc hr, ?_⟩, fun p m s i hc hm hr => ⟨fun h => ?_, fun h => ?_⟩,
    fun p s i h => ⟨_, exec_storeAx h, ?_⟩⟩
  · have word (a : Nat) : s.word a 0 = BitVec.ofNat 16 (s.read a 2) := rfl
    rw [word, refreshEs_eq]
    generalize BitVec.ofNat 16 (s.read (s.addr m) 2) = w
    exact ⟨⟨⟨rfl, rfl, rfl⟩, rfl, ⟨rfl, rfl, rfl, rfl, rfl, rfl, rfl, rfl, rfl⟩⟩, fun _ => rfl, ⟨rfl, rfl, rfl⟩, rfl, rfl,
      rfl, rfl⟩
  · obtain ⟨kept, fresh⟩ := cwImage_defined s.cw s.draws
    exact ⟨_, kept, fresh, _, exec_storeCw hc hr h, ranControl_store .., memStored_control hm (inRange_le hr) _ _,
      ⟨rfl, rfl, rfl⟩, rfl, rfl, rfl⟩
  · exact ⟨_, exec_storeSw hc hr h, ranControl_store .., memStored_control hm (inRange_le hr) _ _, ⟨rfl, rfl, rfl⟩, rfl,
      rfl, rfl⟩
  · exact ⟨rfl, ⟨⟨rfl, rfl, rfl⟩, rfl, ⟨rfl, rfl, rfl, rfl, rfl, rfl, rfl, rfl, rfl⟩⟩, fun _ => rfl, ⟨rfl, rfl, rfl⟩, rfl,
      rfl, rfl⟩

/-! ### The stack pointer, and no operation (R369 to R376) -/

/-- An instruction on the stack pointer or a tag: what it writes of them, and C1 where the rule sets it. -/
theorem completes_stackOnly {top : BitVec 3} {tags : Vector Tag 8} {body : State → Except Refusal State}
    (plain : Plain i none s) (hc : s.pending = .clear) (meaning : exec i s = s.nonControl i body)
    (hm : i.memForm = none) (ends : body (begun s i) = .ok u) (htop : u.sw.top = top) (htags : u.tags = tags)
    (hregs : u.regs = s.regs)
    (same : SameFlags s u) (hc1 : i = .fincstp p ∨ i = .fdecstp p → u.sw.c1 = false) :
    Completes i s fun t => Ran i none s t ∧ MemKept s t ∧ t.sw.top = top ∧ t.tags = tags ∧ t.regs = s.regs ∧
      Flagged [] s t ∧ ((i = .fincstp p ∨ i = .fdecstp p) → t.sw.c1 = false) := by
  have run := meaning.trans (nonControl_clear hc hm)
  rw [ends] at run
  obtain ⟨ran, mem⟩ := plain.frame hc run
  exact ⟨_, run, ran, mem, htop, htags, hregs, (same.advance _).flagged (reported_refl s).flagged, hc1⟩

/-- Settles O60: each writes TOP or one tag or nothing. -/
theorem stackPointerFreeAndNoOperations : Obligations.StackPointerFreeAndNoOperations := by
  refine ⟨fun p j s hc i top tags row => ?_, fun p s i h => ⟨_, exec_nothing h, ?_⟩⟩
  · simp only [List.mem_cons, Prod.mk.injEq, List.not_mem_nil, or_false] at row
    rcases row with ⟨rfl, rfl, rfl⟩ | ⟨rfl, rfl, rfl⟩ | ⟨rfl, rfl, rfl⟩ | ⟨rfl, rfl, rfl⟩
    · have meaning : execFincstp p s = s.nonControl (.fincstp p) _ := rfl
      exact completes_stackOnly ⟨rfl, rfl, rfl, rfl, rfl⟩ hc meaning rfl rfl rfl rfl rfl ⟨rfl, rfl, rfl, rfl⟩
        (fun _ => rfl)
    · have meaning : execFdecstp p s = s.nonControl (.fdecstp p) _ := rfl
      exact completes_stackOnly ⟨rfl, rfl, rfl, rfl, rfl⟩ hc meaning rfl rfl rfl rfl rfl ⟨rfl, rfl, rfl, rfl⟩
        (fun _ => rfl)
    · have meaning : execFfree p j s = s.nonControl (.ffree p j) _ := rfl
      exact completes_stackOnly ⟨rfl, rfl, rfl, rfl, rfl⟩ hc meaning rfl rfl rfl rfl rfl ⟨rfl, rfl, rfl, rfl⟩
        (by simp)
    · have meaning : execFnop p s = s.nonControl (.fnop p) _ := rfl
      exact completes_stackOnly ⟨rfl, rfl, rfl, rfl, rfl⟩ hc meaning rfl rfl rfl rfl rfl ⟨rfl, rfl, rfl, rfl⟩
        (by simp)
  · exact ⟨⟨⟨rfl, rfl, rfl⟩, rfl, ⟨rfl, rfl, rfl, rfl, rfl, rfl, rfl, rfl, rfl⟩⟩, fun _ => rfl, ⟨rfl, rfl, rfl⟩, rfl, rfl,
      rfl⟩

end Sys2Proof.ControlWords


/-! PROOFS. The environment and state images (R362 to R368, R377 to R381): what a store leaves at each byte offset, what a
load reads there, and that the one undoes the other. -/

namespace Sys2Proof.Images

open Sys2Proof Sys2Proof.Machine Sys2Proof.DataTransfer Sys2Proof.Frames Sys2Proof.Running Sys2Proof.Delivery
open Sys2Proof.ControlWords

variable {s t u : State} {i : Instr} {p : List Prefix} {m : MemForm} {a n v : Nat} {f : ImageFormat} {e : Env}

/-! ### Reads of stored bytes (R72) -/

/-- The `n` bytes at `a` are those of `v`. -/
def BytesAt (t : State) (a n v : Nat) : Prop := ∀ k < n, t.byte (a + k) = BitVec.ofNat 8 (v >>> (8 * k))

/-- Part of the bytes read. -/
theorem BytesAt.read (h : BytesAt t a n v) {o c : Nat} (inside : o + c ≤ n) :
    t.read (a + o) c = v / 256 ^ o % 256 ^ c := by
  induction c generalizing o with
  | zero => simp [State.read, memRead, Nat.mod_one]
  | succ c ih =>
    have first : (t.byte (a + o)).toNat = v / 256 ^ o % 256 := by
      rw [h o (by omega), BitVec.toNat_ofNat, Nat.shiftRight_eq_div_pow, pow_mul]
      rfl
    have rest := ih (o := o + 1) (by omega)
    rw [State.read, memRead, ← State.byte, first, ← State.read, Nat.add_assoc, rest, pow_succ, ← Nat.div_div_eq_div_mul,
      pow_succ', Nat.mod_mul]

theorem word_eq_image16 (t : State) (a k : Nat) : t.word a k = t.image16 a (2 * k) := rfl

/-- Four bytes are two words, the upper at the higher address. -/
theorem image32_eq (t : State) (a o : Nat) : t.image32 a o = t.image16 a (o + 2) ++ t.image16 a o := by
  have split : t.read (a + o) 4 = t.read (a + o) 2 + 65536 * t.read (a + (o + 2)) 2 := by
    simp only [State.read, memRead]
    rw [show a + (o + 2) = a + o + 1 + 1 by omega]
    ring
  have lo : t.read (a + o) 2 < 65536 := memRead_lt ..
  have hi : t.read (a + (o + 2)) 2 < 65536 := memRead_lt ..
  refine BitVec.eq_of_toNat_eq ?_
  rw [State.image32, State.image16, State.image16, split, BitVec.toNat_append, BitVec.toNat_ofNat, BitVec.toNat_ofNat,
    BitVec.toNat_ofNat, Nat.mod_eq_of_lt hi, Nat.mod_eq_of_lt lo, ← Nat.shiftLeft_add_eq_or_of_lt lo, Nat.shiftLeft_eq,
    Nat.mod_eq_of_lt (by omega)]
  ring

/-! ### The words of an image (R377 to R380) -/

theorem wordsToNat_word (ws : List Word16) {k : Nat} {w : Word16} (h : ws[k]? = some w) :
    wordsToNat ws / 65536 ^ k % 65536 = w.toNat := by
  induction ws generalizing k with
  | nil => cases h
  | cons x xs ih =>
    have hx := x.isLt
    rw [wordsToNat]
    cases k with
    | zero =>
      cases h
      rw [pow_zero, Nat.div_one]
      omega
    | succ k =>
      rw [pow_succ', ← Nat.div_div_eq_div_mul, show (x.toNat + 65536 * wordsToNat xs) / 65536 = wordsToNat xs by omega]
      exact ih h

/-- The words of an image stand at their places. -/
theorem word_of_image {ws : List Word16} (h : BytesAt t a n (wordsToNat ws)) {k : Nat} {w : Word16}
    (hk : ws[k]? = some w) (inside : 2 * k + 2 ≤ n) : t.word a k = w := by
  have read := h.read (o := 2 * k) (c := 2) inside
  rw [State.word, read, pow_mul]
  refine BitVec.eq_of_toNat_eq ?_
  have value := wordsToNat_word ws hk
  have lt := w.isLt
  rw [BitVec.toNat_ofNat]
  change wordsToNat ws / 65536 ^ k % 65536 % 65536 = _
  rw [value]
  exact Nat.mod_eq_of_lt lt

/-! ### The pointers in words (R378, D28) -/

theorem offset_words (p : FarPtr) : (p.extractLsb' 16 16 ++ p.extractLsb' 0 16 : Word32) = p.extractLsb' 0 32 := by
  refine BitVec.eq_of_getLsbD_eq fun j hj => ?_
  simp only [BitVec.getLsbD_append, BitVec.getLsbD_extractLsb']
  grind

theorem linear_words (l : Word32) (fop : BitVec 11) :
    ((0#4 ++ l.extractLsb' 20 12 : Word16) ++ (l.extractLsb' 16 4 ++ 0#1 ++ fop : Word16) : Word32) =
      0#4 ++ l.extractLsb' 16 16 ++ 0#1 ++ fop := by
  refine BitVec.eq_of_getLsbD_eq fun j hj => ?_
  simp only [BitVec.getLsbD_append, BitVec.getLsbD_extractLsb']
  grind

theorem linear_words_data (l : Word32) :
    ((0#4 ++ l.extractLsb' 20 12 : Word16) ++ (l.extractLsb' 16 4 ++ 0#12 : Word16) : Word32) =
      0#4 ++ l.extractLsb' 16 16 ++ 0#12 := by
  refine BitVec.eq_of_getLsbD_eq fun j hj => ?_
  simp only [BitVec.getLsbD_append, BitVec.getLsbD_extractLsb']
  grind

/-- The words of an environment image. -/
def ImageWords (f : ImageFormat) (e : Env) (draws a : Nat) (t : State) : Prop :=
  ∀ k w, (envWords f e draws)[k]? = some w → t.word a k = w

theorem length_envWords (f : ImageFormat) (e : Env) (draws : Nat) : 2 * (envWords f e draws).length = f.size := by
  cases f <;> rfl

theorem imageWords_of_bytes (h : BytesAt t a f.size (wordsToNat (envWords f e n))) : ImageWords f e n a t := by
  intro k w hk
  have inside := (List.getElem?_eq_some_iff.1 hk).1
  have size := length_envWords f e n
  exact word_of_image h hk (by omega)

/-- The image a store leaves, by its byte offsets. -/
theorem imageShows_of_words {fop : BitVec 11} (h : ImageWords f e n a t) (hf : e.fop = some fop) :
    ImageShows f a e.cw e.sw e.tw e.fip e.fdp fop t := by
  have at16 (k : Nat) {w : Word16} (hk : (envWords f e n)[k]? = some w) : t.image16 a (2 * k) = w := h k w hk
  have at32 (k : Nat) {w w' : Word16} (hk : (envWords f e n)[k]? = some w) (hk' : (envWords f e n)[k + 1]? = some w') :
      t.image32 a (2 * k) = w' ++ w := by
    rw [image32_eq, at16 k hk]
    exact congrArg (· ++ w) (at16 (k + 1) hk')
  have opcode : e.fop.getD 0#11 = fop := by rw [hf]; rfl
  cases f with
  | protected32 =>
    exact ⟨at16 0 rfl, at16 2 rfl, at16 4 rfl, (at32 6 rfl rfl).trans (offset_words _), at16 8 rfl,
      (at16 9 rfl).trans (by rw [opcode]), (at32 10 rfl rfl).trans (offset_words _), at16 12 rfl⟩
  | real32 =>
    exact ⟨at16 0 rfl, at16 2 rfl, at16 4 rfl, at16 6 rfl, (at32 8 rfl rfl).trans (by rw [opcode]; exact linear_words ..),
      at16 10 rfl, (at32 12 rfl rfl).trans (linear_words_data _)⟩
  | protected16 => exact ⟨at16 0 rfl, at16 1 rfl, at16 2 rfl, at16 3 rfl, at16 4 rfl, at16 5 rfl, at16 6 rfl⟩
  | real16 =>
    exact ⟨at16 0 rfl, at16 1 rfl, at16 2 rfl, at16 3 rfl, (at16 4 rfl).trans (by rw [opcode]), at16 5 rfl, at16 6 rfl⟩

/-! ### FNSTENV (R363, R364) -/

theorem bytesAt_store (hm : memWf s.mem = true) (h : a + n ≤ memEnd) (v : Nat) : BytesAt (s.store a n v) a n v :=
  fun k hk => State.byte_store_inside s a n v k hm h hk

/-- The image after a store of the environment. -/
theorem imageShows_storeEnv (hm : memWf s.mem = true) (h : a + f.size ≤ memEnd) (same : ∀ k < f.size, t.byte (a + k) =
    (s.storeEnv f a).byte (a + k)) :
    ImageShows f a (cwImage s.cw s.draws) s.sw.toBits (tagWord s.tags) s.fip s.fdp s.fop t :=
  imageShows_of_words (e := s.env) (n := s.draws)
    (imageWords_of_bytes fun k hk => (same k hk).trans (bytesAt_store hm h _ k hk)) rfl

theorem fnstenvBody_inRange (hp : i.prefixes = p) (hr : s.inRange m (s.imageFormat p).size = true) :
    fnstenvBody i m s = .next ((s.storeEnv (s.imageFormat p) (s.addr m)).maskAll.advance i.length) := by
  subst hp
  rw [fnstenvBody]
  exact controlMem_inRange hr

theorem exec_storeEnv (h : i = .fnstenv p m ∨ i = .fstenv p m ∧ s.pending = .clear)
    (hr : s.inRange m (s.imageFormat p).size = true) :
    exec i s = .next ((s.storeEnv (s.imageFormat p) (s.addr m)).maskAll.advance i.length) := by
  rcases h with rfl | ⟨rfl, hc⟩
  · exact fnstenvBody_inRange rfl hr
  · exact (waiting_clear hc _).trans (fnstenvBody_inRange rfl hr)

/-- With all masks set nothing is pending. -/
theorem summary_masked (w : StatusWord) (cw : Word16) : summary w (cw ||| 0x003F#16) = false := by
  have masked (k : Nat) (h : k < 6) : (cw ||| 0x003F#16).getLsbD k = true := by
    rw [BitVec.getLsbD_or, (by decide : ∀ k < 6, (0x003F#16).getLsbD k = true) k h, Bool.or_true]
  simp only [summary, masked 0 (by decide), masked 1 (by decide), masked 2 (by decide), masked 3 (by decide),
    masked 4 (by decide), masked 5 (by decide), Bool.not_true, Bool.and_false, Bool.or_false]

theorem maskAll_eq (s : State) : s.maskAll =
    ((s.withCw (s.cw ||| 0x003F#16)).withSw { s.sw with es := false, b := false }).withFerr false := by
  have masked : summary (s.withCw (s.cw ||| 0x003F#16)).sw (s.withCw (s.cw ||| 0x003F#16)).cw = false :=
    summary_masked s.sw s.cw
  rw [State.maskAll, refreshEs_eq, masked]
  rfl

/-- Settles O55: the words of the image at their offsets; then the masks are set. -/
theorem storeEnvironment : Obligations.StoreEnvironment := by
  intro p m s i h f hm hr
  obtain ⟨kept, fresh⟩ := cwImage_defined s.cw s.draws
  have le : s.addr m + f.size ≤ memEnd := inRange_le hr
  refine ⟨_, exec_storeEnv h hr, ?_⟩
  rw [maskAll_eq]
  refine ⟨⟨⟨rfl, rfl, rfl⟩, rfl, ⟨rfl, rfl, rfl, rfl, rfl, rfl, rfl, rfl, rfl⟩⟩, fun b hb => ?_, ⟨rfl, rfl, rfl⟩, rfl, rfl,
    rfl, rfl, rfl, _, kept, fresh, imageShows_storeEnv hm le fun _ _ => rfl⟩
  exact State.byte_store_outside s _ _ _ b hb

/-! ### FLDENV (R362) -/

theorem offset_halves (w : Word16) (x y : Word16) : (w ++ x ++ y : FarPtr) = w ++ (x ++ y : Word32) := by
  refine BitVec.eq_of_getLsbD_eq fun j hj => ?_
  simp only [BitVec.getLsbD_append]
  grind

theorem linear_fields (x y z : Word16) :
    (x.extractLsb' 0 12 ++ y.extractLsb' 12 4 ++ z : Word32) = (x ++ y : Word32).extractLsb' 12 16 ++ z := by
  refine BitVec.eq_of_getLsbD_eq fun j hj => ?_
  simp only [BitVec.getLsbD_append, BitVec.getLsbD_extractLsb']
  grind

theorem opcode_field (x y : Word16) : y.extractLsb' 0 11 = (x ++ y : Word32).extractLsb' 0 11 := by
  refine BitVec.eq_of_getLsbD_eq fun j hj => ?_
  simp only [BitVec.getLsbD_append, BitVec.getLsbD_extractLsb']
  grind

theorem real_pointer (x : BitVec 4) (y : Word16) :
    (0#16 ++ (0#12 ++ x ++ y : Word32) : FarPtr) = 0#28 ++ (x ++ y : BitVec 20) := by
  refine BitVec.eq_of_getLsbD_eq fun j hj => ?_
  simp only [BitVec.getLsbD_append]
  grind

/-- A load reads what the image holds. -/
theorem readEnv_eq (h : ImageHolds f a s e) : s.readEnv f a = e := by
  cases e
  cases f with
  | protected32 =>
    obtain ⟨rfl, rfl, rfl, rfl, rfl, rfl⟩ := h
    simp only [State.readEnv, word_eq_image16, image32_eq, offset_halves]
  | real32 =>
    obtain ⟨rfl, rfl, rfl, rfl, rfl, rfl⟩ := h
    simp only [State.readEnv, word_eq_image16, image32_eq, linear_fields, ← opcode_field]
  | protected16 =>
    obtain ⟨rfl, rfl, rfl, rfl, rfl, rfl⟩ := h
    simp only [State.readEnv, word_eq_image16, offset_halves]
  | real16 =>
    obtain ⟨rfl, rfl, rfl, rfl, rfl, rfl⟩ := h
    simp only [State.readEnv, word_eq_image16, real_pointer]

theorem exec_loadEnv (hc : s.pending = .clear) (hr : s.inRange m (s.imageFormat p).size = true) :
    exec (.fldenv p m) s = .next
      ((s.loadEnv (s.readEnv (s.imageFormat p) (s.addr m))).refreshEs.advance (Instr.fldenv p m).length) := by
  change execFldenv p m s = _
  rw [execFldenv, waiting_clear hc]
  exact controlMem_inRange hr

/-- Settles O56: the environment is read at its offsets, and ES and B follow. -/
theorem loadEnvironment : Obligations.LoadEnvironment := by
  intro p m s e hc f hr holds
  refine ⟨_, exec_loadEnv hc hr, ?_⟩
  rw [readEnv_eq holds, refreshEs_eq]
  exact ⟨rfl, rfl, rfl, rfl, rfl, tags_loadTags e.tw s.regs, rfl, fun _ => rfl,
    ⟨rfl, rfl, rfl, rfl, rfl, rfl, rfl, rfl, rfl⟩, rfl⟩

/-! ### FNSAVE (R367, R381) -/

/-- Register `j` of the stack image. -/
theorem stackImage_register (s : State) {n j : Nat} (h : j < n) (hn : n ≤ 8) :
    s.stackImage n / (2 ^ 80) ^ j % 2 ^ 80 = (s.st (BitVec.ofNat 3 (8 - n + j))).toNat := by
  induction n generalizing j with
  | zero => omega
  | succ n ih =>
    have lt := (s.st (BitVec.ofNat 3 (7 - n))).isLt
    rw [State.stackImage]
    cases j with
    | zero =>
      rw [pow_zero, Nat.div_one, show 8 - (n + 1) + 0 = 7 - n by omega]
      omega
    | succ j =>
      rw [pow_succ' (2 ^ 80) j, ← Nat.div_div_eq_div_mul,
        show ((s.st (BitVec.ofNat 3 (7 - n))).toNat + 2 ^ 80 * s.stackImage n) / 2 ^ 80 = s.stackImage n by omega,
        ih (by omega) (by omega), show 8 - n + j = 8 - (n + 1) + (j + 1) by omega]

/-- The registers in stack order. -/
theorem read_stackImage (h : BytesAt t a 80 (s.stackImage 8)) (j : StIdx) :
    t.read (a + 10 * j.toNat) 10 = (s.st j).toNat := by
  have lt := j.isLt
  have value := stackImage_register s (n := 8) lt le_rfl
  rw [show 8 - 8 + j.toNat = j.toNat by omega, BitVec.ofNat_toNat, BitVec.setWidth_eq] at value
  rw [h.read (by omega), pow_mul]
  exact value

/-- The state a save leaves. -/
def saved (s : State) (f : ImageFormat) (a : Nat) : State :=
  ((s.storeEnv f a).store (a + f.size) 80 (s.stackImage 8)).initFpu

theorem fnsaveBody_inRange (hp : i.prefixes = p) (hr : s.inRange m ((s.imageFormat p).size + 80) = true) :
    fnsaveBody i m s = .next ((saved s (s.imageFormat p) (s.addr m)).advance i.length) := by
  subst hp
  rw [fnsaveBody]
  exact controlMem_inRange hr

theorem exec_save (h : i = .fnsave p m ∨ i = .fsave p m ∧ s.pending = .clear)
    (hr : s.inRange m ((s.imageFormat p).size + 80) = true) :
    exec i s = .next ((saved s (s.imageFormat p) (s.addr m)).advance i.length) := by
  rcases h with rfl | ⟨rfl, hc⟩
  · exact fnsaveBody_inRange rfl hr
  · exact (waiting_clear hc _).trans (fnsaveBody_inRange rfl hr)

theorem byte_saved (s : State) (f : ImageFormat) (a b : Nat) :
    (saved s f a).byte b = ((s.storeEnv f a).store (a + f.size) 80 (s.stackImage 8)).byte b := byte_initFpu _ b

theorem byte_saved_env {k : Nat} (hk : k < f.size) : (saved s f a).byte (a + k) = (s.storeEnv f a).byte (a + k) := by
  rw [byte_saved, State.byte_store_outside _ _ _ _ _ (.inl (by omega))]

theorem byte_saved_outside {b : Nat} (hb : b < a ∨ a + (f.size + 80) ≤ b) : (saved s f a).byte b = s.byte b := by
  rw [byte_saved, State.byte_store_outside _ _ _ _ _ (by omega), State.storeEnv,
    State.byte_store_outside _ _ _ _ _ (by omega)]

theorem bytesAt_saved (hm : memWf s.mem = true) (h : a + (f.size + 80) ≤ memEnd) :
    BytesAt (saved s f a) (a + f.size) 80 (s.stackImage 8) := by
  have canonical : memWf (s.storeEnv f a).mem = true := memWf_store s _ _ _ hm (by omega)
  intro k hk
  rw [byte_saved]
  exact bytesAt_store canonical (by omega) _ k hk

theorem hostKept_saved (s : State) (f : ImageFormat) (a n : Nat) : HostKept s ((saved s f a).advance n) := by
  constructor <;> simp [saved, State.initFpu, State.storeEnv]

theorem regs_saved (s : State) (f : ImageFormat) (a n : Nat) : ((saved s f a).advance n).regs = s.regs := by
  simp [saved, State.initFpu, State.storeEnv]

theorem eip_saved (s : State) (f : ImageFormat) (a n : Nat) :
    ((saved s f a).advance n).eip = s.eip + BitVec.ofNat 32 n := by
  simp [saved, State.initFpu, State.storeEnv]

/-- Settles O57: the two parts of the image lie beside each other; then the state is initialized. -/
theorem saveState : Obligations.SaveState := by
  intro p m s i h f hm hr
  obtain ⟨kept, fresh⟩ := cwImage_defined s.cw s.draws
  have le : s.addr m + (f.size + 80) ≤ memEnd := inRange_le hr
  have byte (b : Nat) : ((saved s f (s.addr m)).advance i.length).byte b = (saved s f (s.addr m)).byte b := by
    rw [State.byte, State.advance_mem, State.byte]
  refine ⟨_, exec_save h hr, ⟨_, kept, fresh, imageShows_storeEnv hm (by omega) fun k hk => ?_⟩,
    read_stackImage fun k hk => ?_, fun b hb => ?_, rfl, statusWord_init, tagWord_init, rfl, rfl, rfl,
    regs_saved .., rfl, hostKept_saved .., eip_saved ..⟩
  · exact (byte _).trans (byte_saved_env hk)
  · exact (byte _).trans (bytesAt_saved hm le k hk)
  · exact (byte b).trans (byte_saved_outside hb)

/-! ### FRSTOR (R365) -/

theorem exec_restore (hc : s.pending = .clear) (hr : s.inRange m ((s.imageFormat p).size + 80) = true)
    (he : s.readEnv (s.imageFormat p) (s.addr m) = e) :
    exec (.frstor p m) s = .next (((s.withRegs (s.readStack (StatusWord.ofBits e.sw).top
      (s.addr m + (s.imageFormat p).size))).loadEnv e).refreshEs.advance (Instr.frstor p m).length) := by
  subst he
  change execFrstor p m s = _
  rw [execFrstor, waiting_clear hc]
  exact controlMem_inRange hr

/-- Register ST(j) of a stack image, counted from the image's own TOP. -/
theorem get_readStack (s : State) (top j : BitVec 3) (a : Nat) :
    (s.readStack top a).get (top + j).toFin = BitVec.ofNat 80 (s.read (a + 10 * j.toNat) 10) := by
  have back : BitVec.ofFin (top + j).toFin - top = j := by
    change top + j - top = j
    rw [BitVec.add_comm, BitVec.add_sub_cancel]
  rw [State.readStack, Vector.get_eq_getElem, Vector.getElem_ofFn, Fin.eta, back]

/-- Settles O58: the environment as FLDENV reads it, and the registers after it. -/
theorem restoreState : Obligations.RestoreState := by
  intro p m s e hc f hr holds
  refine ⟨_, exec_restore hc hr (readEnv_eq holds), ?_⟩
  rw [refreshEs_eq]
  exact ⟨rfl, rfl, rfl, rfl, fun j => get_readStack s (StatusWord.ofBits e.sw).top j _, tags_loadTags e.tw _, rfl,
    fun _ => rfl, ⟨rfl, rfl, rfl, rfl, rfl, rfl, rfl, rfl, rfl⟩, rfl⟩

/-! ### FRSTOR after FNSAVE -/

/-- What a load makes of a stored image: the pointers as D28 reads them. -/
def readBack (f : ImageFormat) (cw sw tw : Word16) (fip fdp : FarPtr) (fop : BitVec 11) : Env :=
  match f with
  | .protected32 => { cw := cw, sw := sw, tw := tw, fip := fip, fdp := fdp, fop := some fop }
  | .real32 =>
    { cw := cw, sw := sw, tw := tw, fip := (linear fip).zeroExtend 48, fdp := (linear fdp).zeroExtend 48, fop := some fop }
  | .protected16 =>
    { cw := cw, sw := sw, tw := tw, fip := fip.extractLsb' 32 16 ++ (0#16 ++ fip.extractLsb' 0 16),
      fdp := fdp.extractLsb' 32 16 ++ (0#16 ++ fdp.extractLsb' 0 16), fop := none }
  | .real16 =>
    { cw := cw, sw := sw, tw := tw, fip := ((linear fip).extractLsb' 0 20).zeroExtend 48,
      fdp := ((linear fdp).extractLsb' 0 20).zeroExtend 48, fop := some fop }

theorem pointer_fields (x : FarPtr) : (x.extractLsb' 32 16 ++ x.extractLsb' 0 32 : FarPtr) = x := by
  refine BitVec.eq_of_getLsbD_eq fun j hj => ?_
  simp only [BitVec.getLsbD_append, BitVec.getLsbD_extractLsb']
  grind

theorem opcode_word (x : BitVec 11) : (0#5 ++ x : Word16).extractLsb' 0 11 = x := by
  refine BitVec.eq_of_getLsbD_eq fun j hj => ?_
  simp only [BitVec.getLsbD_append, BitVec.getLsbD_extractLsb']
  grind

/-- The 32-bit real-address pointer, from the double word with the opcode or with zeros in its place. -/
theorem linear_read (l : Word32) (x : BitVec 12) :
    (0#16 ++ ((0#4 ++ l.extractLsb' 16 16 ++ x : Word32).extractLsb' 12 16 ++ l.extractLsb' 0 16 : Word32) : FarPtr) =
      l.zeroExtend 48 := by
  refine BitVec.eq_of_getLsbD_eq fun j hj => ?_
  simp only [BitVec.getLsbD_append, BitVec.getLsbD_extractLsb', BitVec.getLsbD_setWidth]
  grind

theorem linear_read_opcode (l : Word32) (x : BitVec 11) :
    (0#16 ++ ((0#4 ++ l.extractLsb' 16 16 ++ 0#1 ++ x : Word32).extractLsb' 12 16 ++ l.extractLsb' 0 16 : Word32) : FarPtr) =
      l.zeroExtend 48 := by
  refine BitVec.eq_of_getLsbD_eq fun j hj => ?_
  simp only [BitVec.getLsbD_append, BitVec.getLsbD_extractLsb', BitVec.getLsbD_setWidth]
  grind

theorem opcode_read (l : Word32) (x : BitVec 11) : (0#4 ++ l.extractLsb' 16 16 ++ 0#1 ++ x : Word32).extractLsb' 0 11 = x := by
  refine BitVec.eq_of_getLsbD_eq fun j hj => ?_
  simp only [BitVec.getLsbD_append, BitVec.getLsbD_extractLsb']
  grind

/-- The 20-bit real-address pointer. -/
theorem short_read (l : Word32) (x : BitVec 12) :
    (0#28 ++ ((l.extractLsb' 16 4 ++ x : Word16).extractLsb' 12 4 ++ l.extractLsb' 0 16 : BitVec 20) : FarPtr) =
      (l.extractLsb' 0 20).zeroExtend 48 := by
  refine BitVec.eq_of_getLsbD_eq fun j hj => ?_
  simp only [BitVec.getLsbD_append, BitVec.getLsbD_extractLsb', BitVec.getLsbD_setWidth]
  grind

theorem short_read_opcode (l : Word32) (x : BitVec 11) :
    (0#28 ++ ((l.extractLsb' 16 4 ++ 0#1 ++ x : Word16).extractLsb' 12 4 ++ l.extractLsb' 0 16 : BitVec 20) : FarPtr) =
      (l.extractLsb' 0 20).zeroExtend 48 := by
  refine BitVec.eq_of_getLsbD_eq fun j hj => ?_
  simp only [BitVec.getLsbD_append, BitVec.getLsbD_extractLsb', BitVec.getLsbD_setWidth]
  grind

theorem short_opcode_read (l : Word32) (x : BitVec 11) :
    (l.extractLsb' 16 4 ++ 0#1 ++ x : Word16).extractLsb' 0 11 = x := by
  refine BitVec.eq_of_getLsbD_eq fun j hj => ?_
  simp only [BitVec.getLsbD_append, BitVec.getLsbD_extractLsb']
  grind

/-- An image that shows registers holds them as they are read back. -/
theorem imageHolds_of_shows {cw sw tw : Word16} {fip fdp : FarPtr} {fop : BitVec 11}
    (h : ImageShows f a cw sw tw fip fdp fop t) : ImageHolds f a t (readBack f cw sw tw fip fdp fop) := by
  cases f with
  | protected32 =>
    obtain ⟨hcw, hsw, htw, ip, cs, op, dp, ds⟩ := h
    exact ⟨hcw.symm, hsw.symm, htw.symm, by rw [ip, cs]; exact (pointer_fields fip).symm,
      by rw [op]; exact congrArg some (opcode_word fop).symm, by rw [dp, ds]; exact (pointer_fields fdp).symm⟩
  | real32 =>
    obtain ⟨hcw, hsw, htw, ip, op, dp, high⟩ := h
    exact ⟨hcw.symm, hsw.symm, htw.symm, by rw [ip, op]; exact (linear_read_opcode _ fop).symm,
      by rw [op]; exact congrArg some (opcode_read _ fop).symm, by rw [dp, high]; exact (linear_read _ 0#12).symm⟩
  | protected16 =>
    obtain ⟨hcw, hsw, htw, ip, cs, dp, ds⟩ := h
    exact ⟨hcw.symm, hsw.symm, htw.symm, by rw [ip, cs]; rfl, rfl, by rw [dp, ds]; rfl⟩
  | real16 =>
    obtain ⟨hcw, hsw, htw, ip, op, dp, high⟩ := h
    exact ⟨hcw.symm, hsw.symm, htw.symm, by rw [ip, op]; exact (short_read_opcode _ fop).symm,
      by rw [op]; exact congrArg some (short_opcode_read _ fop).symm, by rw [dp, high]; exact (short_read _ 0#12).symm⟩

theorem ofBits_toBits (w : StatusWord) : StatusWord.ofBits w.toBits = w := by
  obtain ⟨ie, de, ze, oe, ue, pe, sf, es, c0, c1, c2, top, c3, b⟩ := w
  have stack : (StatusWord.toBits ⟨ie, de, ze, oe, ue, pe, sf, es, c0, c1, c2, top, c3, b⟩).extractLsb' 11 3 = top := by
    refine BitVec.eq_of_getLsbD_eq fun j hj => ?_
    simp only [StatusWord.toBits, BitVec.getLsbD_append, BitVec.getLsbD_extractLsb', BitVec.getLsbD_ofBool]
    grind
  rw [StatusWord.ofBits, stack]
  simp only [StatusWord.toBits, BitVec.getLsbD_append, BitVec.getLsbD_ofBool]
  simp

theorem extract_tagWord (tags : Vector Tag 8) (k : Fin 8) :
    (tagWord tags).extractLsb' (2 * k.val) 2 = (tags.get k).code := by
  refine BitVec.eq_of_getLsbD_eq fun j hj => ?_
  simp only [tagWord, BitVec.getLsbD_append, BitVec.getLsbD_extractLsb']
  fin_cases k <;> grind

theorem code_eq_three (x : Tag) : x.code = 3#2 ↔ x = .empty := by cases x <;> decide

/-- A tag word loaded beside the registers it was stored with gives the tags back. -/
theorem loadTag_of_stored (h : ∀ k : Fin 8, s.tags.get k = .empty ∨ s.tags.get k = tagOf (s.regs.get k)) (k : Fin 8) :
    (if (tagWord s.tags).extractLsb' (2 * k.val) 2 = 3#2 then Tag.empty else tagOf (s.regs.get k)) = s.tags.get k := by
  simp only [extract_tagWord, code_eq_three]
  split
  · next empty => exact empty.symm
  · next full => exact ((h k).resolve_left full).symm

/-- ES depends on the masks alone (R33). -/
theorem summary_congr {w : StatusWord} {cw cw' : Word16} (h : cw &&& 0x1F3F#16 = cw' &&& 0x1F3F#16) :
    summary w cw = summary w cw' := by
  have mask (k : Nat) (hk : k < 6) : cw.getLsbD k = cw'.getLsbD k := by
    have bit := congrArg (BitVec.getLsbD · k) h
    simp only [BitVec.getLsbD_and] at bit
    rwa [(by decide : ∀ k < 6, (0x1F3F#16).getLsbD k = true) k hk, Bool.and_true, Bool.and_true] at bit
  simp only [summary, mask 0 (by decide), mask 1 (by decide), mask 2 (by decide), mask 3 (by decide), mask 4 (by decide),
    mask 5 (by decide)]

/-- Registers equal in stack order are equal. -/
theorem regs_eq_of_st (top : u.sw.top = s.sw.top) (h : ∀ j : StIdx, u.st j = s.st j) : u.regs = s.regs := by
  refine Vector.ext fun k hk => ?_
  have place (v : State) (same : v.sw.top = s.sw.top) : v.phys (BitVec.ofFin ⟨k, hk⟩ - s.sw.top) = BitVec.ofFin ⟨k, hk⟩ := by
    rw [State.phys, same, BitVec.add_comm, BitVec.sub_add_cancel]
  have equal := h (BitVec.ofFin ⟨k, hk⟩ - s.sw.top)
  rw [State.st, State.st, place u top, place s rfl] at equal
  exact equal

theorem readBack_cw (cw sw tw : Word16) (fip fdp : FarPtr) (fop : BitVec 11) : (readBack f cw sw tw fip fdp fop).cw = cw := by
  cases f <;> rfl

theorem readBack_sw (cw sw tw : Word16) (fip fdp : FarPtr) (fop : BitVec 11) : (readBack f cw sw tw fip fdp fop).sw = sw := by
  cases f <;> rfl

theorem readBack_tw (cw sw tw : Word16) (fip fdp : FarPtr) (fop : BitVec 11) : (readBack f cw sw tw fip fdp fop).tw = tw := by
  cases f <;> rfl

/-- Of a state that meets the invariant, ES and B recomputed are those stored. -/
theorem statusWord_back (inv : s.Inv) (masks : u.cw &&& 0x1F3F#16 = s.cw &&& 0x1F3F#16)
    (h : u.sw = { s.sw with es := summary u.sw u.cw, b := summary u.sw u.cw }) : u.sw = s.sw := by
  generalize es : summary u.sw u.cw = c at h
  have value : c = s.sw.es := by
    rw [← es, h, summary_congr masks]
    exact inv.es.symm
  rw [h, value]
  exact (congrArg (fun b => { s.sw with b := b }) inv.busy).symm

theorem inRange_of_save (h : exec (.fnsave p m) s = .next t) : s.inRange m ((s.imageFormat p).size + 80) = true := by
  have meaning : execFnsave p m s = .next t := h
  unfold execFnsave fnsaveBody at meaning
  exact (controlMem_next (s := s) meaning).1

/-- Settles O59: what a save shows is what a restore reads. -/
theorem restoreUndoesSave : Obligations.RestoreUndoesSave := by
  intro p q m s t inv run format
  have hr := inRange_of_save run
  obtain ⟨t', run', ⟨w, defined, -, shows⟩, registers, -, cw, sw, tw, fip, fdp, fop, regs, ferr, host, eip⟩ :=
    saveState p m s _ (.inl rfl) inv.memory hr
  obtain rfl : t' = t := by rw [run] at run'; cases run'; rfl
  have clear : t'.pending = .clear := by
    have zero : t'.sw = StatusWord.ofBits 0#16 := by rw [← sw, ofBits_toBits]
    rw [State.pending, zero]
    rfl
  have place : t'.addr m = s.addr m := by rw [State.addr, State.addr, State.offset, State.offset, host.gprs]
  have same : t'.imageFormat q = s.imageFormat p := by
    rw [← format, State.imageFormat, State.imageFormat, host.mode, host.code32]
  have range : t'.inRange m ((t'.imageFormat q).size + 80) = true := by
    rw [State.inRange, place, same]; exact hr
  obtain ⟨u, restored, ucw, ufip, ufdp, ufop, ust, utags, usw, -⟩ :=
    restoreState q m t' (readBack (s.imageFormat p) w s.sw.toBits (tagWord s.tags) s.fip s.fdp s.fop) clear range
      (by rw [same, place]; exact imageHolds_of_shows shows)
  rw [readBack_cw] at ucw
  rw [readBack_sw, ofBits_toBits] at usw
  rw [readBack_tw] at utags
  rw [same, place] at ust
  have usw := statusWord_back inv (by rw [ucw]; exact defined) usw
  have uregs : u.regs = s.regs := regs_eq_of_st (by rw [usw]) fun j => by
    rw [ust j, registers j, BitVec.ofNat_toNat, BitVec.setWidth_eq]
  refine ⟨u, restored, uregs, ?_, usw, by rw [ucw]; exact defined, ?_⟩
  · refine Vector.ext fun k hk => ?_
    have tag := utags ⟨k, hk⟩
    rw [uregs, loadTag_of_stored inv.tags] at tag
    exact tag
  · rw [ufip, ufdp, ufop, fop]
    refine ⟨fun h => ?_, fun h => ?_, fun h => ?_, fun h => ?_⟩ <;> rw [h] <;> exact ⟨rfl, rfl, rfl⟩

end Sys2Proof.Images


/-! PROOFS. Which exception flags an instruction changes (R425): the runs of updates list them for all but fourteen
instructions, and for those the results stay within the exponent range, or the processor reports no denormal. -/

namespace Sys2Proof.FlagTable

open Sys2Proof Sys2Proof.Machine Sys2Proof.DataTransfer Sys2Proof.BasicArithmetic Sys2Proof.Running Sys2Proof.Delivery
open Sys2Proof.Arithmetic Sys2Proof.Fields Sys2Proof.RegisterOps Sys2Proof.Remainders Sys2Proof.Reductions
open Sys2Proof.Transcendentals Sys2Proof.Logarithms

variable {cs : List Cond} {s t u : State} {i : Instr} {q : Option FarPtr} {ops : List Operand} {d : Option Dest}
  {go : State → Except Refusal State} {a b x y : Operand}

/-! ### Runs that may signal the listed conditions, and write any register -/

/-- What an instruction on registers may do, with the conditions it may signal. -/
def signalling (cs : List Cond) : Allowed where
  conds := cs
  regs := allIndices
  tops := allIndices
  stored := none
  eflags := true

theorem allowsAnyDest (top : BitVec 3) (d : Dest) : AllowsDest (signalling cs) top d :=
  ⟨Frames.mem_allIndices _, fun _ => ⟨Frames.mem_allIndices _, Frames.mem_allIndices _⟩⟩

theorem allowsAnyPush (top : BitVec 3) : AllowsPush (signalling cs) top :=
  ⟨Frames.mem_allIndices _, Frames.mem_allIndices _⟩

theorem allowsAnyResponses (top : BitVec 3) (d : Option Dest) :
    AllowsResponses (signalling cs) top (responsesOf d) := by
  cases d with
  | some d => exact (allowsAnyDest top d).responses
  | none => exact (allowsAnyPush top).responses (Frames.mem_allIndices _)

theorem signals_foldl {ds : List Cond} (h : ∀ c ∈ ds, c ∈ cs) : Runs (signalling cs) s (ds.foldl State.signal s) := by
  induction ds generalizing s with
  | nil => exact Runs.refl
  | cons c ds ih =>
    obtain ⟨head, tail⟩ := List.forall_mem_cons.1 h
    exact (Runs.signal head).trans (ih tail)

/-- The checks answer without the rest of the instruction where an operand is no number. -/
theorem preChecks_notNumber {pushes : Bool} {r : Responses} (h : ¬ ∀ a ∈ ops, isNumber a.val = true)
    (go' : State → Except Refusal State) : preChecks ops pushes r go s = preChecks ops pushes r go' s := by
  unfold preChecks
  split_ifs with h1 h2 unsupported snan qnan
  any_goals rfl
  refine absurd (fun a mem => isNumber_iff.2 ⟨?_, ?_⟩) h
  · exact Bool.eq_false_of_not_eq_true fun bad => unsupported (List.any_eq_true.2 ⟨a, mem, bad⟩)
  · refine Bool.eq_false_of_not_eq_true fun nan => ?_
    rcases isNan_iff.1 nan with signaling | quiet
    · exact snan (List.any_eq_true.2 ⟨a, mem, beq_iff_eq.2 signaling⟩)
    · exact qnan (List.any_eq_true.2 ⟨a, mem, beq_iff_eq.2 quiet⟩)

/-- The checks signal what their rows of the table list, and what follows them finds numbers. -/
theorem signals_preChecks {pushes : Bool} (checks : ∀ c ∈ [Cond.isUnder, .isOver, .ia], c ∈ cs)
    (hgo : (∀ a ∈ ops, isNumber a.val = true) → ∀ v, go s = .ok v → Runs (signalling cs) s v)
    (h : preChecks ops pushes (responsesOf d) go s = .ok t) : Runs (signalling cs) s t := by
  have run {go : State → Except Refusal State} (rest : ∀ v, go s = .ok v → Runs (signalling cs) s v)
      (h : preChecks ops pushes (responsesOf d) go s = .ok t) : Runs (signalling cs) s t :=
    Runs.preChecks (A := signalling cs) (checks _ (by simp)) (fun _ => ⟨checks _ (by simp), allowsAnyPush _⟩)
      (checks _ (by simp)) (allowsAnyResponses _ d) rest h
  by_cases numbers : ∀ a ∈ ops, isNumber a.val = true
  · exact run (hgo numbers) h
  · rw [preChecks_notNumber numbers fun _ => .error .precisionReserved] at h
    exact run (fun _ stopped => by cases stopped) h

/-- The denormal check keeps the processor. -/
theorem signals_denormalCheck (hd : .d ∈ cs)
    (hgo : ∀ u v : State, u.params = s.params → go u = .ok v → Runs (signalling cs) u v)
    (h : denormalCheck ops go s = .ok t) : Runs (signalling cs) s t := by
  unfold denormalCheck at h
  split at h
  · split at h
    · exact (Runs.signal hd).trans (hgo _ _ (State.signal_params s .d) h)
    · cases h; exact Runs.signal hd
  · exact hgo _ _ rfl h

theorem finiteNonzero_of_number {v : Ext} (number : isNumber v = true) (zero : isZero v = false)
    (inf : isInf v = false) :
    isFiniteNonzero v = true := by
  rcases number_cases number with h | h | h
  · rw [h] at zero; cases zero
  · exact h
  · rw [h] at inf; cases inf

/-! ### Delivery without overflow -/

theorem signals_deliverReg {e : Exact} {w : Nat} (hp : .p ∈ cs) (range : ∀ rc, InRange fmtExt (roundP e w rc)) :
    Runs (signalling cs) s (deliverReg w e s).1 := by
  rw [deliverReg, deliver_inRange (range _)]
  exact Runs.reportInexact hp

theorem signals_deliverT {a : Approx} (hu : .u ∈ cs) (hp : .p ∈ cs) (small : (roundedOf a).exponent ≤ 16383) :
    Runs (signalling cs) s (deliverT a s).1 := by
  obtain ⟨ds, b, v, great, conds, form⟩ := deliverT_form a s
  rw [form s rfl]
  refine (signals_foldl fun c hc => ?_).trans (Runs.setC1 b)
  rcases conds c hc with rfl | rfl | rfl
  · exact absurd (great hc) (not_lt.2 small)
  · exact hu
  · exact hp

theorem signals_deliverSt0 {a : Approx} (hu : .u ∈ cs) (hp : .p ∈ cs) (small : (roundedOf a).exponent ≤ 16383) :
    Runs (signalling cs) s (s.deliverSt0 a) :=
  (signals_deliverT hu hp small).trans (Runs.setSt (Frames.mem_allIndices _))

theorem signals_deliverDest {a : Approx} {dest : Dest} (hu : .u ∈ cs) (hp : .p ∈ cs)
    (small : (roundedOf a).exponent ≤ 16383) : Runs (signalling cs) s (s.deliverDest dest a) :=
  (signals_deliverT hu hp small).trans (Runs.writeDest (allowsAnyDest _ _))

/-! ### Square root and remainder (R262 to R264) -/

/-- A root lies within the exponent range. -/
theorem signals_sqrtStep (row : [Cond.ia, .d, .p] ⊆ cs) (number : isNumber a.val = true)
    (h : sqrtStep a s = .ok t) : Runs (signalling cs) s t := by
  unfold sqrtStep sqrtExt at h
  split_ifs at h with zero negative inf <;> rw [respondResult] at h
  · refine signals_denormalCheck (row (by simp)) (fun u v _ h => ?_) h
    cases h; exact Runs.exactDest (allowsAnyDest _ _)
  · cases h; exact Runs.invalidDest (row (by simp)) (allowsAnyDest _ _)
  · refine signals_denormalCheck (row (by simp)) (fun u v _ h => ?_) h
    cases h; exact Runs.exactDest (allowsAnyDest _ _)
  · have finite := finiteNonzero_of_number number (by simpa using zero) (by simpa using inf)
    refine signals_denormalCheck (row (by simp)) (fun u v _ h => ?_) h
    cases prec : precOf s.cw with
    | none => rw [prec] at h; cases h
    | some w =>
      rw [prec] at h
      cases h
      exact (signals_deliverReg (row (by simp)) fun rc => Roots.sqrt_inRange rc finite (Roots.precOf_pos prec)).trans
        (Runs.writeDest (allowsAnyDest _ _))

/-- A remainder is exact, and no greater than the dividend. -/
theorem signals_writeRemainder {kind : RemKind} {v w : Ext} {neg : Bool} (hu : .u ∈ cs) (fv : isFiniteNonzero v = true)
    (fw : isFiniteNonzero w = true) :
    Runs (signalling cs) s (s.writeRemainder neg (remainder kind (valOf v) (valOf w)).r) := by
  obtain ⟨pv, lv, kv, kv'⟩ := Roots.exponent_valOf_bounds fv
  obtain ⟨pw, lw, kw, -⟩ := Roots.exponent_valOf_bounds fw
  have grid : -16445 ≤ (remainder kind (valOf v) (valOf w)).r.k := by rw [k_remainder]; exact le_min kv kw
  have high : exponentOf (remainder kind (valOf v) (valOf w)).r ≤ 16383 := by
    have log := (Nat.log2_lt pv.ne').2 lv
    refine (exponent_remainder_le pv).trans ?_
    rw [exponentOf]
    omega
  have write (u : State) (e : Ext) : Runs (signalling cs) u (u.setSt 0#3 e) := Runs.setSt (Frames.mem_allIndices _)
  unfold State.writeRemainder
  split_ifs with nothing
  · exact write _ _
  · dsimp only
    rw [deliverReg_exact nothing (remainder_fits lv pv lw pw) grid high]
    refine Runs.trans (Runs.trans ?_ (Runs.setC1 _)) (write _ _)
    split
    · exact (Runs.signal hu).trans (Runs.setC1 _)
    · exact Runs.setC1 _

theorem signals_premStep {kind : RemKind} (row : [Cond.ia, .d, .u] ⊆ cs) (na : isNumber a.val = true)
    (nb : isNumber b.val = true) (h : premStep kind a b s = .ok t) : Runs (signalling cs) s t := by
  unfold premStep at h
  split at h
  · cases h
    exact Runs.respond (row (by simp)) (((Runs.setC2 _).trans (Runs.setC1 _)).trans
      (Runs.setSt (Frames.mem_allIndices _)))
  · next accepted =>
    simp only [Bool.or_eq_true, not_or, Bool.not_eq_true] at accepted
    refine signals_denormalCheck (row (by simp)) (fun u v _ h => ?_) h
    split at h
    · cases h; exact (Runs.setCodes _ _ _).trans (Runs.setC1 _)
    · next numeric =>
      simp only [Bool.or_eq_true, not_or, Bool.not_eq_true] at numeric
      cases h
      exact Runs.remainderCodes.trans (signals_writeRemainder (row (by simp))
        (finiteNonzero_of_number na numeric.2 accepted.2) (finiteNonzero_of_number nb accepted.1 numeric.1))

/-! ### The trigonometric instructions (R321 to R324) -/

theorem signals_trigStep {f : Trig} (row : [Cond.ia, .d] ⊆ cs) (responses : f.responses = responsesOf d)
    (hz : ∀ u, Runs (signalling cs) u (f.onZero a.val u))
    (hn : InTrigRange a.val → ∀ u, Runs (signalling cs) u (f.onNumber a.val u)) (number : isNumber a.val = true)
    (h : trigStep f a s = .ok t) : Runs (signalling cs) s t := by
  unfold trigStep at h
  split at h
  · cases h
    rw [responses]
    exact Runs.respond (row (by simp)) (((Runs.setC2 _).trans (Runs.setC1 _)).trans
      ((allowsAnyResponses _ d).invalid _ rfl))
  · next finite =>
    split at h
    · cases h; exact (Runs.setC2 _).trans Runs.freeC1
    · next near =>
      refine (Runs.setC2 _).trans (signals_denormalCheck (row (by simp)) (fun u v _ h => ?_) h)
      split at h
      · cases h; exact (Runs.setC1 _).trans (hz _)
      · next nonzero =>
        rw [Bool.not_eq_true] at finite nonzero
        have range : InTrigRange a.val := by
          refine ⟨finiteNonzero_of_number number nonzero finite, not_le.1 fun far => near ?_⟩
          rw [nonzero, decide_eq_true far]; rfl
        cases h; exact hn range _

theorem signals_writePush (v w : Ext) : Runs (signalling cs) s (s.writePush v w) :=
  Runs.writePush (Frames.mem_allIndices _) (allowsAnyPush _)

theorem signals_sinCos {v : Ext} (hu : .u ∈ cs) (hp : .p ∈ cs) (range : InTrigRange v) :
    Runs (signalling cs) s (s.sinCos v) :=
  (((signals_deliverT hu hp ((sin_exponent range).trans (by decide))).trans
    (signals_deliverT hu hp ((cos_exponent range).trans (by decide)))).trans (Runs.setC1 _)).trans
    (signals_writePush _ _)

/-! ### Arctangent, logarithm and exponential (R325, R328, R329) -/

theorem signals_piDest {dest : Dest} {neg : Bool} {num e : Nat} (hp : .p ∈ cs)
    (h : (num, e) ∈ [(1, 0), (1, 1), (1, 2), (3, 2)]) : Runs (signalling cs) s (s.piDest dest neg num e) :=
  (signals_deliverReg hp (pi_inRange h)).trans (Runs.writeDest (allowsAnyDest _ _))

theorem signals_atanSpecial {v w : Ext} {dest : Dest} (hp : .p ∈ cs) (h : s.atanSpecial v w dest = some u) :
    Runs (signalling cs) s u := by
  have exactly {z : Ext} (h : some (s.exactDest dest z) = some u) : Runs (signalling cs) s u :=
    Option.some.inj h ▸ Runs.exactDest (allowsAnyDest _ _)
  have angle {neg : Bool} {num e : Nat} (hne : (num, e) ∈ [(1, 0), (1, 1), (1, 2), (3, 2)])
      (h : some (s.piDest dest neg num e) = some u) : Runs (signalling cs) s u :=
    Option.some.inj h ▸ signals_piDest hp hne
  unfold State.atanSpecial at h
  dsimp only at h
  split_ifs at h
  all_goals first | exact exactly h | exact angle (by decide) h

/-- Two numbers without a special result are finite and not zero. -/
theorem finite_of_atanSpecial {v w : Ext} {dest : Dest} (nv : isNumber v = true) (nw : isNumber w = true)
    (h : s.atanSpecial v w dest = none) : isFiniteNonzero v = true ∧ isFiniteNonzero w = true := by
  unfold State.atanSpecial at h
  dsimp only at h
  split_ifs at h with zv _ iv _ _ zw iw
  rw [Bool.not_eq_true] at zv iv zw iw
  exact ⟨finiteNonzero_of_number nv zv iv, finiteNonzero_of_number nw zw iw⟩

theorem signals_atanStep (row : [Cond.ia, .d, .u, .p] ⊆ cs) (ny : isNumber y.val = true)
    (nx : isNumber x.val = true) (h : atanStep y x s = .ok t) : Runs (signalling cs) s t := by
  refine signals_denormalCheck (row (by simp)) (fun u v _ h => ?_) h
  split at h
  · next special => cases h; exact signals_atanSpecial (row (by simp)) special
  · next special =>
    obtain ⟨fy, fx⟩ := finite_of_atanSpecial ny nx special
    cases h
    exact signals_deliverDest (row (by simp)) (row (by simp)) ((atan2_exponent fy fx).trans (by decide))

/-- An operand in the domain is above -1 (R328). -/
theorem inXp1Range_of_domain {P : Params} {v : Ext} (finite : isFiniteNonzero v = true)
    (inside : inXp1Domain P v = true) :
    InXp1Range P v := by
  obtain ⟨inf, above, -, -⟩ := inXp1Domain_iff.1 inside
  have value : ratOf (negate one) = -1 := by
    have bits : valOf (negate one) = { neg := true, n := 2 ^ 63, k := -63 } := by decide
    rw [ratOf, bits, Sys2Proof.Num.toRat]
    norm_num
  have greater : (-1 : ℚ) < ratOf v := by
    rw [cmpExt_eq inf (by decide), value] at above
    refine not_le.1 fun le => relation_ne_greater.2 le above
  refine ⟨finite, inside, ?_⟩
  have cast : ((-1 : ℚ) : ℝ) < realOf v := Rat.cast_lt.2 greater
  simpa using cast

/-- FYL2XP1 overflows only where the processor's domain goes beyond the documented one. -/
theorem signals_log1pStep (row : [Cond.ia, .d, .u, .p] ⊆ cs)
    (ho : s.params.xp1Documented = false → .o ∈ cs) (ny : isNumber y.val = true) (nx : isNumber x.val = true)
    (h : log1pStep y x s = .ok t) : Runs (signalling cs) s t := by
  unfold log1pStep at h
  split at h
  · cases h; exact Runs.invalidDest (row (by simp)) (allowsAnyDest _ _)
  · refine signals_denormalCheck (row (by simp)) (fun u v params h => ?_) h
    split_ifs at h with outside zero infinite
    · cases h; exact Runs.freeC1.trans (Runs.writeDest (allowsAnyDest _ _))
    · cases h; exact Runs.exactDest (allowsAnyDest _ _)
    · cases h; exact Runs.exactDest (allowsAnyDest _ _)
    · cases h
      cases documented : s.params.xp1Documented with
      | false =>
        exact Runs.deliverDest (A := signalling cs) (ho documented) (row (by simp)) (row (by simp)) (allowsAnyDest _ _)
      | true =>
        simp only [Bool.or_eq_true, not_or, Bool.not_eq_true] at zero infinite
        have inside : inXp1Domain u.params x.val = true := by simpa using outside
        have fx := finiteNonzero_of_number nx zero.1 (inXp1Domain_iff.1 inside).1
        exact signals_deliverDest (row (by simp)) (row (by simp)) (ylog2xp1_exponent (by rw [params]; exact documented)
          (finiteNonzero_of_number ny zero.2 infinite) (inXp1Range_of_domain fx inside))

theorem signOf_magnitude (v : Ext) : signOf (magnitude v) = false := by
  rw [signOf, getLsbD_magnitude]
  simp

theorem ratOf_magnitude (v : Ext) : ratOf (magnitude v) = |ratOf v| := by
  have value : valOf (magnitude v) = { valOf v with neg := false } := by
    simp only [valOf, expOf_magnitude, sigOf_magnitude, signOf_magnitude]
  rw [ratOf, ratOf, abs_toRat, value, Sys2Proof.Num.toRat]
  simp

/-- A finite number not above one in magnitude is an argument of F2XM1. -/
theorem inExpRange_of_magnitude {v : Ext} (finite : isFiniteNonzero v = true)
    (h : cmpExt (magnitude v) one ≠ .greater) :
    InExpRange v := by
  have inf : isInf (magnitude v) = false := by
    refine Bool.eq_false_of_not_eq_true fun inf => h ?_
    rw [cmpOne_infinite inf, signOf_magnitude]; rfl
  rw [cmpOne_finite inf, relation_ne_greater, ratOf_magnitude] at h
  refine ⟨finite, ?_⟩
  have cast : ((|ratOf v| : ℚ) : ℝ) ≤ ((1 : ℚ) : ℝ) := Rat.cast_le.2 h
  simpa [realOf] using cast

theorem signals_exp2m1Step (row : [Cond.ia, .d, .u, .p] ⊆ cs) (number : isNumber a.val = true)
    (h : exp2m1Step a s = .ok t) : Runs (signalling cs) s t := by
  refine signals_denormalCheck (row (by simp)) (fun u v _ h => ?_) h
  split_ifs at h with great zero
  · cases h; exact Runs.freeC1.trans (Runs.setSt (Frames.mem_allIndices _))
  · cases h; exact Runs.exactDest (allowsAnyDest _ _)
  · rw [beq_iff_eq] at great
    rw [Bool.not_eq_true] at zero
    have inf : isInf a.val = false := by
      refine Bool.eq_false_of_not_eq_true fun inf => great ?_
      rw [eq_infinity_of_isInf inf]
      cases signOf a.val <;> decide
    cases h
    exact signals_deliverSt0 (row (by simp)) (row (by simp))
      ((exp2m1_exponent (inExpRange_of_magnitude (finiteNonzero_of_number number zero inf) great)).trans (by decide))

/-! ### The compares that report in EFLAGS (R303) -/

theorem signals_compareOps {kind : CompareKind} {reports : Bool} (hs : .isUnder ∈ cs) (hi : .ia ∈ cs)
    (hd : reports = true → .d ∈ cs) : Runs (signalling cs) s (compareOps a b kind reports s).state := by
  cases reports with
  | true => exact Runs.compareOps (A := signalling cs) hs hi (hd rfl)
  | false =>
    unfold compareOps
    rw [Bool.false_and, if_neg Bool.false_ne_true]
    split_ifs
    · exact Runs.signal hs
    · exact Runs.signal hi
    · exact Runs.refl
    · exact Runs.refl

theorem signals_compareEflags {kind : CompareKind} {pops : Nat} (few : pops ≤ 1) (hs : .isUnder ∈ cs) (hi : .ia ∈ cs)
    (hd : s.params.fcomiSignalsD = true → .d ∈ cs) : Runs (signalling cs) s (s.compareEflags b kind pops) := by
  have allows (top : BitVec 3) : AllowsPops (signalling cs) top pops := by
    match pops, few with
    | 0, _ => exact trivial
    | 1, _ => exact ⟨Frames.mem_allIndices _, Frames.mem_allIndices _⟩
  unfold State.compareEflags
  dsimp only
  split
  · exact signals_compareOps hs hi hd
  · exact ((signals_compareOps hs hi hd).trans (Runs.setRelationFlags rfl)).trans (Runs.popN (allows _))

/-! ### The fourteen instructions -/

/-- The flags an instruction may change, from the state it began in. -/
abbrev ChangesListed (i : Instr) (s t : State) : Prop := FlagsWithin (signalling (i.signals s.params)) s t

theorem changesListed_of_finish {r : Except Refusal State} (h : finish i r = .next t)
    (signals : ∀ v, r = .ok v → Runs (signalling (i.signals s.params)) (begun s i) v) : ChangesListed i s t := by
  cases r with
  | error e => cases h
  | ok v =>
    cases h
    obtain ⟨others, sf, sticky⟩ := (signals v rfl).flags
    exact ⟨others, sf, sticky⟩

theorem changesListed_of_checked (checked : Checked i q ops d go s)
    (checks : ∀ c ∈ [Cond.isUnder, .isOver, .ia], c ∈ i.signals s.params)
    (signals : (∀ a ∈ ops, isNumber a.val = true) → ∀ v, go (start s i) = .ok v →
      Runs (signalling (i.signals s.params)) (start s i) v) (h : exec i s = .next t) : ChangesListed i s t :=
  changesListed_of_finish (checked.run.symm.trans h) fun _ ok =>
    Runs.freeCodes.trans (signals_preChecks checks signals ok)

theorem changesListed_of_compare {j : StIdx} {kind : CompareKind} {pops : Nat} (hc : s.pending = .clear)
    (hm : i.memForm = none) (few : pops ≤ 1) (checks : ∀ c ∈ [Cond.isUnder, .isOver, .ia], c ∈ i.signals s.params)
    (hd : s.params.fcomiSignalsD = true → .d ∈ i.signals s.params)
    (h : compareRegEflags i j kind pops s = .next t) : ChangesListed i s t := by
  by_cases present : s.params.hasFcomi = true
  · rw [Compares.compareRegEflags_clear present hc hm] at h
    refine changesListed_of_finish h fun v ok => ?_
    cases ok
    exact signals_compareEflags few (checks _ (by simp)) (checks _ (by simp)) hd
  · rw [compareRegEflags, if_neg present] at h
    cases h

/-- The instructions whose delivery or compare can signal more than their row in general do not. -/
theorem changesListed_of_mayDeliver (hc : s.pending = .clear) (hm : i.mayDeliver ≠ []) (h : exec i s = .next t) :
    ChangesListed i s t := by
  have checks (l : List Cond) : ∀ c ∈ [Cond.isUnder, .isOver, .ia], c ∈ [Cond.isUnder, .isOver, .ia] ++ l :=
    fun _ hc => List.mem_append_left _ hc
  have push {l : List Cond} (u : State) (v w : Ext) : Runs (signalling l) u (u.writePush v w) := signals_writePush v w
  cases i with
  | fsqrt p =>
    refine changesListed_of_checked (checked_fsqrt p hc) (checks _) (fun numbers _ => ?_) h
    exact signals_sqrtStep (by simp [Instr.signals]) (numbers _ (by simp))
  | fprem p =>
    refine changesListed_of_checked (checked_fprem p hc) (checks _) (fun numbers _ => ?_) h
    exact signals_premStep (by simp [Instr.signals]) (numbers _ (by simp)) (numbers _ (by simp))
  | fprem1 p =>
    refine changesListed_of_checked (checked_fprem1 p hc) (checks _) (fun numbers _ => ?_) h
    exact signals_premStep (by simp [Instr.signals]) (numbers _ (by simp)) (numbers _ (by simp))
  | fsin p =>
    refine changesListed_of_checked (checked_fsin p hc) (checks _) (fun numbers _ => ?_) h
    refine signals_trigStep (d := some st0) (by simp [Instr.signals]) rfl
      (fun u => Runs.setSt (Frames.mem_allIndices _)) (fun range u => ?_) (numbers _ (by simp))
    exact signals_deliverSt0 (by simp [Instr.signals]) (by simp [Instr.signals])
      ((sin_exponent range).trans (by decide))
  | fcos p =>
    refine changesListed_of_checked (checked_fcos p hc) (checks _) (fun numbers _ => ?_) h
    refine signals_trigStep (d := some st0) (by simp [Instr.signals]) rfl
      (fun u => Runs.setSt (Frames.mem_allIndices _)) (fun range u => ?_) (numbers _ (by simp))
    exact signals_deliverSt0 (by simp [Instr.signals]) (by simp [Instr.signals])
      ((cos_exponent range).trans (by decide))
  | fsincos p =>
    refine changesListed_of_checked (checked_fsincos p hc) (checks _) (fun numbers _ => ?_) h
    refine signals_trigStep (d := none) (by simp [Instr.signals]) rfl (fun u => push u _ _) (fun range u => ?_)
      (numbers _ (by simp))
    exact signals_sinCos (by simp [Instr.signals]) (by simp [Instr.signals]) range
  | fptan p =>
    refine changesListed_of_checked (checked_fptan p hc) (checks _) (fun numbers _ => ?_) h
    refine signals_trigStep (d := none) (by simp [Instr.signals]) rfl (fun u => push u _ _) (fun range u => ?_)
      (numbers _ (by simp))
    exact (signals_deliverSt0 (by simp [Instr.signals]) (by simp [Instr.signals])
      ((tan_exponent range).trans (by decide))).trans (Runs.push (allowsAnyPush _))
  | fpatan p =>
    refine changesListed_of_checked (checked_fpatan p hc) (checks _) (fun numbers _ => ?_) h
    exact signals_atanStep (by simp [Instr.signals]) (numbers _ (by simp)) (numbers _ (by simp))
  | f2xm1 p =>
    refine changesListed_of_checked (checked_f2xm1 p hc) (checks _) (fun numbers _ => ?_) h
    exact signals_exp2m1Step (by simp [Instr.signals]) (numbers _ (by simp))
  | fyl2xp1 p =>
    refine changesListed_of_checked (checked_fyl2xp1 p hc) (checks _) (fun numbers _ => ?_) h
    refine signals_log1pStep (by simp [Instr.signals]) (fun beyond => ?_) (numbers _ (by simp)) (numbers _ (by simp))
    rw [Instr.signals, show s.params.xp1Documented = false from beyond]
    simp
  | fcomi p j => exact changesListed_of_compare hc rfl (by decide) (checks _) (fun d => by simp [Instr.signals, d]) h
  | fcomip p j => exact changesListed_of_compare hc rfl (by decide) (checks _) (fun d => by simp [Instr.signals, d]) h
  | fucomi p j => exact changesListed_of_compare hc rfl (by decide) (checks _) (fun d => by simp [Instr.signals, d]) h
  | fucomip p j => exact changesListed_of_compare hc rfl (by decide) (checks _) (fun d => by simp [Instr.signals, d]) h
  | _ => exact absurd (Eq.refl []) hm

/-- Where the table lists a stack overflow it lists a stack underflow. -/
theorem isUnder_of_isOver {P : Params} (h : .isOver ∈ i.signals P) : .isUnder ∈ i.signals P := by
  cases i <;> first | exact .head _ | exact nomatch h

/-- Settles O10: the run of an instruction signals what its row lists. -/
theorem flagsChangeByTheTable : Obligations.FlagsChangeByTheTable := by
  intro i s t hc h
  have conclude (listed : ChangesListed i s t) :
      (∀ b, b < 6 → b ∉ (i.signals s.params).map Cond.maskBit → t.sw.exceptions[b]? = s.sw.exceptions[b]?) ∧
        (.isUnder ∉ i.signals s.params → t.sw.sf = s.sw.sf) :=
    ⟨listed.others, fun no => listed.sf no fun overflows => no (isUnder_of_isOver overflows)⟩
  rcases Frames.exec_cases h with ⟨-, ⟨-, rfl⟩ | ⟨-, rfl⟩⟩ | ⟨clear, u, ⟨hk, -, runs⟩ | effect, rfl⟩
  · exact ⟨fun _ _ _ => rfl, fun _ => rfl⟩
  · exact ⟨fun _ _ _ => rfl, fun _ => rfl⟩
  · by_cases hm : i.mayDeliver = []
    · obtain ⟨others, sf, sticky⟩ := runs.flags
      have conds : (allowed s i).conds = i.signals s.params := by rw [allowed, hm]; rfl
      rw [conds] at others sf
      exact conclude ⟨others, sf, sticky⟩
    · have waits : i.nonWaiting = false := by
        cases i <;> first | rfl | exact absurd (Eq.refl []) hm
      exact conclude (changesListed_of_mayDeliver (clear waits) hm h)
  · have kept := Frames.exceptions_of_control effect hc
    refine ⟨fun b _ _ => congrArg (·[b]?) kept, fun _ => ?_⟩
    have place := congrArg (·[6]?) kept
    simpa [StatusWord.exceptions] using place

end Sys2Proof.FlagTable
